-- ==== Sys2Proof/Word.lean ====
section
/-! DEFINITION. The word type of the event port (spec/30_encoding.md rule R94). -/

namespace Sys2Proof

/-- One event word, `EV[35:0]` (rule R94). -/
abbrev EventWord := BitVec 36

end Sys2Proof
end

