-- ==== Sys2Proof/Syntax.lean ====
section
/-! DEFINITION. The eight operations of the hardware, one constructor for each row of spec/opcode_table.json
(spec/30_encoding.md rule R95), with the operands rule R95 gives each in the order of the text form of rule R101.
A timestamp is a natural number of milliseconds without bound (spec/00_scope.md rules R10, R11). -/

namespace Sys2Proof

inductive Instr where
  /-- `NOP` (spec/43_queries_and_outputs.md rule R182): no event. -/
  | nop
  /-- `TICK` (spec/40_seconds_clock.md rule R106): one tick of the tick source. -/
  | tick
  /-- `EDGE t lvl` (spec/41_edge_classifier.md rule R121): a transition at `t` to the raw level `lvl`. -/
  | edge (t : Nat) (lvl : Bool)
  /-- `APPEND b now` (spec/42_frame_decoder.md rule R141): append bit `b`. -/
  | append (b : Bool) (now : Nat)
  /-- `FINALIZE now` (spec/42_frame_decoder.md rule R149): close the frame. -/
  | finalize (now : Nat)
  /-- `READTIME` (spec/40_seconds_clock.md rule R110): the query for hh:mm:ss. -/
  | readtime
  /-- `GETTIME` (spec/43_queries_and_outputs.md rule R171): the query for time and date. -/
  | gettime
  /-- `ISSYNCED now` (spec/43_queries_and_outputs.md rule R176): the query for trust. -/
  | issynced (now : Nat)
  deriving DecidableEq, Repr

/-- The mnemonic of rule R95 (and of spec/opcode_table.json). -/
def Instr.mnemonic : Instr → String
  | .nop => "NOP"
  | .tick => "TICK"
  | .edge _ _ => "EDGE"
  | .append _ _ => "APPEND"
  | .finalize _ => "FINALIZE"
  | .readtime => "READTIME"
  | .gettime => "GETTIME"
  | .issynced _ => "ISSYNCED"

/-- The timestamp an operation carries: EDGE, APPEND, FINALIZE and ISSYNCED carry one, the other four none
(spec/00_scope.md rule R16, spec/30_encoding.md rule R95). -/
def Instr.timestamp : Instr → Option Nat
  | .nop => none
  | .tick => none
  | .edge t _ => some t
  | .append _ now => some now
  | .finalize now => some now
  | .readtime => none
  | .gettime => none
  | .issynced now => some now

end Sys2Proof
end

