-- ==== Sys2Proof/WellFormed.lean ====
section
/-! DEFINITION. When an operation has an event word: its timestamp fits the 32-bit `ts` field
(spec/30_encoding.md rule R98: "An event word can therefore express only timestamps below 2^32 ms").
An operation that is not well-formed still has its meaning (the rules make no use of the bound); it only has no word. -/

namespace Sys2Proof

/-- The timestamp fits the `ts` field (rule R98). -/
def timestampFits (t : Nat) : Bool := t < 2 ^ 32

/-- An operation is well-formed when it can be written as an event word (rules R94, R98). -/
def Instr.wf : Instr → Bool
  | .nop => true
  | .tick => true
  | .edge t _ => timestampFits t
  | .append _ now => timestampFits now
  | .finalize now => timestampFits now
  | .readtime => true
  | .gettime => true
  | .issynced now => timestampFits now

end Sys2Proof
end

