-- ==== Sys2Proof/Decode.lean ====
section
/-! DEFINITION. Decoding an event word and encoding an operation (spec/30_encoding.md rules R94 to R98).
Every 36-bit word decodes to exactly one operation (rule R96), so `decode` is total without a rejection. A number of more
than 36 bits is no event word: `decodeNumber` rejects it by name. -/

namespace Sys2Proof

/-- An event word laid out from its three fields (rule R94): `EV[35:33]` op, `EV[32]` lvl, `EV[31:0]` ts. -/
def eventWord (op : BitVec 3) (lvl : Bool) (ts : BitVec 32) : EventWord :=
  op ++ (BitVec.ofBool lvl ++ ts)

/-- The field `lvl`, `EV[32]` (rule R94). -/
def EventWord.lvl (w : EventWord) : Bool := w.getLsbD 32

/-- The field `ts`, `EV[31:0]` (rule R94). -/
def EventWord.ts (w : EventWord) : BitVec 32 := w.extractLsb' 0 32

/-- The decoder of rule R95: the operation code `EV[35:33]` selects the row, `lvl` and `ts` are read where the row uses
them and ignored elsewhere (rule R96). -/
def decode (w : EventWord) : Instr :=
  match w.getLsbD 35, w.getLsbD 34, w.getLsbD 33 with
  | false, false, false => .nop
  | false, false, true => .tick
  | false, true, false => .edge w.ts.toNat w.lvl
  | false, true, true => .append w.lvl w.ts.toNat
  | true, false, false => .finalize w.ts.toNat
  | true, false, true => .readtime
  | true, true, false => .gettime
  | true, true, true => .issynced w.ts.toNat

/-- Why a number is no event word. -/
inductive DecodeError where
  /-- The number has a bit above bit 35; an event word is `EV[35:0]` (rule R94). -/
  | widerThanEventWord
  deriving DecidableEq, Repr

/-- The decoder on any number: the event word it is, or the reason it is none (rules R94, R96). -/
def decodeNumber (n : Nat) : Except DecodeError Instr :=
  if n < 2 ^ 36 then .ok (decode (BitVec.ofNat 36 n)) else .error .widerThanEventWord

/-- The canonical event word of an operation (rules R94, R95): unused fields are zero (rule R96). It says the operation's
own word when the operation is well-formed. -/
def encode : Instr → EventWord
  | .nop => eventWord 0b000 false 0
  | .tick => eventWord 0b001 false 0
  | .edge t lvl => eventWord 0b010 lvl (BitVec.ofNat 32 t)
  | .append b now => eventWord 0b011 b (BitVec.ofNat 32 now)
  | .finalize now => eventWord 0b100 false (BitVec.ofNat 32 now)
  | .readtime => eventWord 0b101 false 0
  | .gettime => eventWord 0b110 false 0
  | .issynced now => eventWord 0b111 false (BitVec.ofNat 32 now)

/-- One row of spec/opcode_table.json: a word belongs to the row when `word &&& mask = pattern`. -/
structure OpcodeRow where
  mnemonic : String
  pattern : EventWord
  mask : EventWord
  deriving DecidableEq, Repr

/-- spec/opcode_table.json, row by row (rule R95). -/
def opcodeTable : List OpcodeRow :=
  [⟨"NOP", 0x000000000, 0xE00000000⟩,
   ⟨"TICK", 0x200000000, 0xE00000000⟩,
   ⟨"EDGE", 0x400000000, 0xE00000000⟩,
   ⟨"APPEND", 0x600000000, 0xE00000000⟩,
   ⟨"FINALIZE", 0x800000000, 0xE00000000⟩,
   ⟨"READTIME", 0xA00000000, 0xE00000000⟩,
   ⟨"GETTIME", 0xC00000000, 0xE00000000⟩,
   ⟨"ISSYNCED", 0xE00000000, 0xE00000000⟩]

/-- The instruction this decoder reads from the word `w` of `nbits` bits; bits above `nbits` are 0. The event word is one
word, so its bits are numbered as rule R94 numbers them. -/
def decodeTableWord (nbits w : Nat) : Option Instr :=
  match decodeNumber (w % 2 ^ nbits) with
  | .ok i => some i
  | .error _ => none

end Sys2Proof
end

