-- ==== Sys2Proof/Config.lean ====
section
/-! DEFINITION. The constants the document fixes (spec/00_scope.md rule R8: "they must be exact").
None of them is a parameter. The one configuration input of the hardware, `INVERTED` (rules R9, R28), is supplied
at reset and can differ from one construction to the next, so it stands in `Machine.State`, not here.
The spec leaves no result of an operation open (rules R185, R189), so there is no free value here. -/

namespace Sys2Proof

/-- Ticks accumulated per second increment (rule R8, `TICKS_PER_SECOND`). -/
@[simp] def Config.ticksPerSecond : Nat := 1000

/-- Seconds in a minute (spec/40_seconds_clock.md rule R106). -/
@[simp] def Config.secondsPerMinute : Nat := 60

/-- Minutes in an hour (rule R106). -/
@[simp] def Config.minutesPerHour : Nat := 60

/-- Hours in a day (rule R106). -/
@[simp] def Config.hoursPerDay : Nat := 24

/-- A pulse width below this is bit 0, at or above it bit 1 (rule R8, `SPLIT_MS`). -/
@[simp] def Config.splitMs : Nat := 140

/-- A rising-edge gap strictly above this finalizes the frame (rule R8, `SYNC_GAP_MS`). -/
@[simp] def Config.syncGapMs : Nat := 1200

/-- A rising-edge gap strictly below this is spurious (rule R8, `DEBOUNCE_MS`). -/
@[simp] def Config.debounceMs : Nat := 300

/-- The length of a frame, and the only `pos` at which FINALIZE decodes (rule R8, `FRAME_BITS`). -/
@[simp] def Config.frameBits : Nat := 59

/-- The staleness bound of ISSYNCED in milliseconds (rule R8, `STALE_MS`). -/
@[simp] def Config.staleMs : Nat := 120000

/-- Added to the converted 8-bit year field (rule R8, `YEAR_BASE`). -/
@[simp] def Config.yearBase : Nat := 2000

end Sys2Proof
end

