-- ==== Sys2Proof/Machine/State.lean ====
section
/-! DEFINITION. The state of the machine: the eighteen registers of spec/10_state.md rule R21 under the spec's own names,
the configuration bit `INVERTED` (rule R28), and the four fields that stand for the hardware's ports and for the
environment's premise (the model's own: spec/10_state.md rule R39 says these are not registers). -/

namespace Sys2Proof.Machine

/-- The one memory, the FrameBuffer bits `buf[58:0]`: 59 one-bit cells, the cell at address `p` being bit `p` (spec/10_state.md
rule R33, spec/20_memory.md rules R55, R57). -/
abbrev Memory := BitVec 59

/-- DecodedTime (rule R29), at the widths of rule R21. -/
structure DecodedTime where
  second : BitVec 6
  minute : BitVec 7
  hour : BitVec 6
  day : BitVec 6
  month : BitVec 5
  year : BitVec 12
  deriving DecidableEq, Repr

/-- The record a query returns (spec/30_encoding.md rule R99). -/
inductive Result where
  /-- READTIME: `{hh, mm, ss}`. -/
  | readtime (hh : BitVec 6) (mm : BitVec 7) (ss : BitVec 6)
  /-- GETTIME: `{second, minute, hour, day, month, year}`. -/
  | gettime (second : BitVec 6) (minute : BitVec 7) (hour : BitVec 6) (day : BitVec 6) (month : BitVec 5) (year : BitVec 12)
  /-- ISSYNCED: one bit, 1 = true. -/
  | issynced (answer : Bool)
  deriving DecidableEq, Repr

/-- What the outside world can hand the hardware at one step. -/
inductive Input where
  /-- An event word at the event port (spec/30_encoding.md rule R94). -/
  | word (w : EventWord)
  /-- An operation delivered as such, not through the 36-bit port encoding: rule R94 lets a model use "its own event type",
  and a timestamp of 2^32 ms or more has no event word (rules R10, R98). DESIGN CHOICE, notes/assumptions/2.md. -/
  | operation (i : Instr)
  /-- The reset input, with the construction value of `INVERTED` (spec/70_reset_and_hazards.md rule R210). -/
  | reset (inverted : Bool)
  deriving DecidableEq, Repr

/-- No operation faults: "It has no fault outcome" (spec/60_exceptions.md rules R185, R189). The type has no constructor,
so that no meaning can answer with a fault. -/
inductive Fault where
  deriving DecidableEq, Repr

/-- Why an operation is given no next state. -/
inductive Refusal where
  /-- Raised by `exec`'s arm of an instruction that has no meaning yet; no arm of this model is one. Safe: the model stops. -/
  | notModelled (mnemonic : String)
  /-- Raised by EDGE, APPEND, FINALIZE and ISSYNCED when their timestamp is lower than one given earlier: "A model must refuse
  (give no meaning to) an event whose timestamp is lower than an earlier one" (spec/00_scope.md rule R16). Safe: the model stops. -/
  | timestampDecreased
  deriving DecidableEq, Repr

@[ext]
structure State where
  /-- Seconds Clock: ticks since the last second increment (rules R21, R23). -/
  tick : BitVec 10
  /-- Seconds Clock: seconds (rules R21, R24). -/
  ss : BitVec 6
  /-- Seconds Clock: minutes; 7 bits, since a commit may load up to 85 (rules R21, R24). -/
  mm : BitVec 7
  /-- Seconds Clock: hours; a commit may load up to 45 (rules R21, R24). -/
  hh : BitVec 6
  /-- Edge Classifier: timestamp of the last accepted low-to-high edge, unbounded (rules R21, R25). -/
  ref : Nat
  /-- Frame Decoder: the FrameBuffer bits (rules R21, R33). -/
  buf : Memory
  /-- Frame Decoder: the address of the next write, 60 only inside APPEND (rules R21, R34). -/
  pos : BitVec 6
  /-- ParityState: running parity of the current field (rules R21, R26). -/
  par_run : Bool
  /-- ParityState: saved minute parity (rules R21, R26). -/
  par_min : Bool
  /-- ParityState: saved hour parity (rules R21, R26). -/
  par_hour : Bool
  /-- ParityState: saved date parity (rules R21, R26). -/
  par_date : Bool
  /-- DecodedTime, its six registers (rules R21, R29). -/
  dt : DecodedTime
  /-- SyncState: timestamp of the last commit, unbounded (rules R21, R31). -/
  last_sync : Nat
  /-- The configuration bit `INVERTED` (spec/00_scope.md rule R9, spec/10_state.md rule R28); only reset sets it (rule R210). -/
  inverted : Bool
  /-- Output port: the indicator, the raw level of the most recent EDGE, no value before the first one
  (spec/43_queries_and_outputs.md rule R180). Not a register; read by no operation. -/
  indicator : Option Bool
  /-- Output port: what the queries have returned to the reader so far, oldest first (spec/30_encoding.md rule R99). Not a register;
  read by no operation. -/
  results : List Result
  /-- The environment's premise (spec/00_scope.md rule R16): the greatest timestamp given to a timestamped operation since reset.
  Not a register; read only to refuse an event that breaks the premise. -/
  lastTime : Nat
  /-- Input port: what the outside world will deliver, in the one total order of spec/20_memory.md rules R64, R66, the next first. Not a
  register; no operation reads it. -/
  inputs : List Input
  deriving DecidableEq, Repr

/-- DecodedTime before the first commit (rules R21, R37). -/
def DecodedTime.reset : DecodedTime :=
  { second := 0, minute := 0, hour := 0, day := 0, month := 0, year := 0 }

/-- The state right after reset with the construction value `inv` of `INVERTED`: every register of rule R21 is 0
(spec/10_state.md rule R37, spec/70_reset_and_hazards.md rule R210). No level is on the indicator, no result has been returned, no
timestamp has been given and nothing is waiting at the input. -/
def State.resetWith (inv : Bool) : State :=
  { tick := 0, ss := 0, mm := 0, hh := 0, ref := 0, buf := 0, pos := 0,
    par_run := false, par_min := false, par_hour := false, par_date := false,
    dt := DecodedTime.reset, last_sync := 0, inverted := inv,
    indicator := none, results := [], lastTime := 0, inputs := [] }

/-- The machine right after reset. `INVERTED` is "the value supplied at construction" (rule R28); this one state takes the not
inverted polarity (DESIGN CHOICE, notes/assumptions/1.md), and `State.resetWith` has both. -/
def State.reset : State := State.resetWith false

end Sys2Proof.Machine
end

