-- ==== Sys2Proof/Machine/Ops.lean ====
section
/-! DEFINITION. The named operations over memory, registers and ports that the meanings share: `MemRead` and `MemWrite`
(spec/20_memory.md rules R60, R61), the moves of `pos` (rule R34), the clear of the buffer (spec/42_frame_decoder.md rule R161), the
outputs (spec/30_encoding.md rule R99), the timestamp premise (spec/00_scope.md rule R16) and the reset input
(spec/70_reset_and_hazards.md rule R210). The hardware has no exception to take and none to return from
(spec/60_exceptions.md rules R185, R197), so no such operation stands here. -/

namespace Sys2Proof.Machine

/-! ## Memory -/

/-- The canonical form of the memory: nothing outside its 59 cells. A 59-bit vector cannot hold anything else, so equal contents are
equal data by the type alone (notes/assumptions/3.md). -/
def Memory.wf (m : Memory) : Bool := m.toNat < 2 ^ 59

/-- The cell `buf[p]` (rule R55); there is no cell at 59 or above, and no rule reads one. -/
def Memory.bit (m : Memory) (p : Nat) : Bool := m.getLsbD p

/-- `MemRead(addr, n)`: the number `buf[addr+n-1 : addr]`, lowest address least significant (rules R57, R60). -/
def Memory.read (m : Memory) (addr n : Nat) : Nat := m.toNat / 2 ^ addr % 2 ^ n

/-- `MemWrite(addr, 1, b)`: overwrites the one cell; a write at 59 or above has no cell and is dropped (rules R58, R61). -/
def Memory.write (m : Memory) (addr : Nat) (b : Bool) : Memory :=
  if addr ≤ 58 then
    (m &&& ~~~(1#59 <<< addr)) ||| ((BitVec.ofBool b).setWidth 59 <<< addr)
  else m

/-- The exclusive or of the `n` cells from `addr` on (rule R80 speaks of "the XOR of" a slice). -/
def Memory.parity (m : Memory) (addr : Nat) : Nat → Bool
  | 0 => false
  | n + 1 => (m.parity addr n) ^^ m.bit (addr + n)

/-! ## The position and the buffer -/

/-- Step 1 of APPEND: the bit goes to `buf[pos]`, for `pos` in 0..58; at 59 it is dropped (spec/42_frame_decoder.md rule R142). -/
def State.storeBit (b : Bool) (s : State) : State :=
  if s.pos.toNat ≤ 58 then { s with buf := s.buf.write s.pos.toNat b } else s

/-- Step 5 of APPEND, its first line: `pos <- p + 1` (rule R146). -/
def State.advance (s : State) : State :=
  { s with pos := BitVec.ofNat 6 (s.pos.toNat + 1) }

/-- The rollback of a spurious RISE: `pos <- max(pos, 1) - 1`, and nothing else (spec/41_edge_classifier.md rule R124). -/
def State.rollback (s : State) : State :=
  { s with pos := BitVec.ofNat 6 (max s.pos.toNat 1 - 1) }

/-- "Reset FrameBuffer to empty and position to 0" (spec/42_frame_decoder.md rule R161); the parity flags, `ref` and `tick` stay (rule R162). -/
def State.clearBuffer (s : State) : State :=
  { s with buf := 0, pos := 0 }

/-- `ref <- t` (spec/41_edge_classifier.md rules R123, R125). -/
def State.setRef (t : Nat) (s : State) : State :=
  { s with ref := t }

/-! ## Outputs -/

/-- A query hands its record to the reader (spec/30_encoding.md rule R99). -/
def State.returnResult (r : Result) (s : State) : State :=
  { s with results := s.results ++ [r] }

/-- EDGE drives the indicator with the raw level (spec/43_queries_and_outputs.md rule R180). -/
def State.driveIndicator (lvl : Bool) (s : State) : State :=
  { s with indicator := some lvl }

/-! ## The timestamp premise -/

/-- The premise of spec/00_scope.md rule R16 for a timestamp `t`: not lower than any given before. -/
def State.admits (s : State) (t : Nat) : Bool := s.lastTime ≤ t

/-- Remembers that `t` was given (rule R16). -/
def State.stamp (t : Nat) (s : State) : State :=
  { s with lastTime := t }

/-- A timestamped operation runs under the premise and is refused without it (rule R16, spec/93_implementation_defined.md U1). -/
def timestamped (t : Nat) (act : State → State) (s : State) : Host.Outcome State Fault Refusal :=
  if s.admits t then .next (act (s.stamp t)) else .refused .timestampDecreased

/-! ## The input port -/

/-- The reset input: every register to its reset value and `INVERTED` to the supplied one (spec/70_reset_and_hazards.md rule R210). What
waits at the input is still to come, and what was returned to the reader was returned (DESIGN CHOICE, notes/assumptions/5.md). -/
def State.applyReset (inv : Bool) (s : State) : State :=
  { State.resetWith inv with inputs := s.inputs, results := s.results }

/-- The input port after its first entry was consumed (spec/60_exceptions.md rule R193). -/
def State.consume (rest : List Input) (s : State) : State :=
  { s with inputs := rest }

/-- `s` with the event word of the number `n` next at the input port (spec/30_encoding.md rule R94). -/
def State.offerWord (n : Nat) (s : State) : State :=
  { s with inputs := .word (BitVec.ofNat 36 n) :: s.inputs }

end Sys2Proof.Machine
end

