-- ==== Sys2Proof/Machine/Operands.lean ====
section
/-! DEFINITION. The values the meanings compute from their operands: the logical level of an EDGE (spec/30_encoding.md rule R87),
its gap or width (spec/41_edge_classifier.md rules R122, R127), the BCD conversion (spec/42_frame_decoder.md rule R152) and the operand
assembly of a commit (spec/30_encoding.md rule R79). -/

namespace Sys2Proof.Machine

/-- `pulse = raw xor INVERTED`; 1 makes the event a RISE, 0 a FALL (rule R87). -/
def pulseLevel (lvl inverted : Bool) : Bool := lvl ^^ inverted

/-- `t - ref`: the gap of a RISE, the width of a FALL. A natural number, since the premise gives `t >= ref`
(spec/00_scope.md rules R14, R16). -/
def State.sinceRef (s : State) (t : Nat) : Nat := t - s.ref

/-- The bit a pulse of `w` milliseconds encodes: 0 below 140, 1 from 140 on (rules R127, R128). -/
def pulseBit (w : Nat) : Bool := if w < Config.splitMs then false else true

/-- `bcd2bin(v) = v - (v div 16) * 6` (rule R152). -/
def bcd2bin (v : Nat) : Nat := v - v / 16 * 6

/-- The six values a commit stores, each field read at its place and converted, second 0 and the year offset added
(spec/30_encoding.md rules R76, R79; spec/42_frame_decoder.md rules R154, R155, R160). -/
def decodedTime (m : Memory) : DecodedTime :=
  { second := 0
    minute := BitVec.ofNat 7 (bcd2bin (m.read 21 7))
    hour := BitVec.ofNat 6 (bcd2bin (m.read 29 6))
    day := BitVec.ofNat 6 (bcd2bin (m.read 36 6))
    month := BitVec.ofNat 5 (bcd2bin (m.read 45 5))
    year := BitVec.ofNat 12 (Config.yearBase + bcd2bin (m.read 50 8)) }

end Sys2Proof.Machine
end

