-- ==== Sys2Proof/Machine/Flags.lean ====
section
/-! DEFINITION. The flags of the hardware, the four parity bits (spec/10_state.md rule R26): how APPEND resets, latches and
accumulates them at the position `pos`, in this order (spec/42_frame_decoder.md rules R143 to R147), and the test FINALIZE makes of
them (rule R151). -/

namespace Sys2Proof.Machine

/-- Step 2 of APPEND: at 21, 29 and 36 the running parity restarts (rule R143). -/
def State.parityReset (s : State) : State :=
  if s.pos.toNat = 21 ∨ s.pos.toNat = 29 ∨ s.pos.toNat = 36 then { s with par_run := false } else s

/-- Step 3 of APPEND: at 28, 35 and 58 the running parity is saved (rule R144). -/
def State.parityLatch (s : State) : State :=
  { s with
    par_min := if s.pos.toNat = 28 then s.par_run else s.par_min
    par_hour := if s.pos.toNat = 35 then s.par_run else s.par_hour
    par_date := if s.pos.toNat = 58 then s.par_run else s.par_date }

/-- Step 4 of APPEND: a 1 inverts the running parity, at every position (rule R145). -/
def State.parityAccumulate (b : Bool) (s : State) : State :=
  if b then { s with par_run := s.par_run ^^ true } else s

/-- The three comparisons of FINALIZE (rule R151). -/
def State.paritiesMatch (s : State) : Bool :=
  (s.par_min == s.buf.bit 28) && (s.par_hour == s.buf.bit 35) && (s.par_date == s.buf.bit 58)

end Sys2Proof.Machine
end

