-- ==== Sys2Proof/Machine/Clock.lean ====
section
/-! DEFINITION. The Seconds Clock: TICK and READTIME (spec/40_seconds_clock.md rules R105 to R112). -/

namespace Sys2Proof.Machine

/-- The carry into the hours (rule R106, innermost lines). -/
def State.carryHour (s : State) : State :=
  if s.hh.toNat + 1 < Config.hoursPerDay then { s with hh := BitVec.ofNat 6 (s.hh.toNat + 1) }
  else { s with hh := 0 }

/-- The carry into the minutes (rule R106); 59..85 returns to 0 and carries (rule R108). -/
def State.carryMinute (s : State) : State :=
  if s.mm.toNat + 1 < Config.minutesPerHour then { s with mm := BitVec.ofNat 7 (s.mm.toNat + 1) }
  else State.carryHour { s with mm := 0 }

/-- The carry into the seconds (rule R106). -/
def State.carrySecond (s : State) : State :=
  if s.ss.toNat + 1 < Config.secondsPerMinute then { s with ss := BitVec.ofNat 6 (s.ss.toNat + 1) }
  else State.carryMinute { s with ss := 0 }

/-- TICK's pseudocode (rule R106). -/
def State.advanceTick (s : State) : State :=
  if s.tick.toNat + 1 < Config.ticksPerSecond then { s with tick := BitVec.ofNat 10 (s.tick.toNat + 1) }
  else State.carrySecond { s with tick := 0 }

/-- TICK (rule R106). -/
def execTick (s : State) : Host.Outcome State Fault Refusal := .next s.advanceTick

/-- READTIME (rule R110): the reader gets `{hh, mm, ss}`; no register is written. -/
def execReadtime (s : State) : Host.Outcome State Fault Refusal :=
  .next (s.returnResult (.readtime s.hh s.mm s.ss))

end Sys2Proof.Machine
end

