-- ==== Sys2Proof/Machine/FrameDecoder.lean ====
section
/-! DEFINITION. The Frame Decoder: FINALIZE and APPEND (spec/42_frame_decoder.md rules R140 to R167), as the shared state
transformers `finalizeFrame` and `appendBit` that the Edge Classifier also calls (spec/41_edge_classifier.md rule R130), and as event
words of their own (spec/30_encoding.md rule R97). -/

namespace Sys2Proof.Machine

/-- The commit (rule R160): DecodedTime as one unit, the sync timestamp, and the Seconds Clock's hh:mm:ss; `tick` is not written. -/
def State.commit (now : Nat) (s : State) : State :=
  { s with
    dt := decodedTime s.buf
    last_sync := now
    ss := 0
    mm := (decodedTime s.buf).minute
    hh := (decodedTime s.buf).hour }

/-- When FINALIZE decodes and accepts: `pos` is exactly 59 and the three parities match (rules R150, R151). -/
def State.frameAccepted (s : State) : Bool :=
  s.pos.toNat == Config.frameBits && s.paritiesMatch

/-- FINALIZE's pseudocode (rule R149). -/
def State.finalizeFrame (now : Nat) (s : State) : State :=
  State.clearBuffer (if s.frameAccepted then s.commit now else s)

/-- APPEND's pseudocode, its five steps in order (rule R141); `pos` 59 overflows into FINALIZE (rule R146). -/
def State.appendBit (b : Bool) (now : Nat) (s : State) : State :=
  let appended := ((((s.storeBit b).parityReset).parityLatch).parityAccumulate b).advance
  if s.pos.toNat + 1 > Config.frameBits then appended.finalizeFrame now else appended

/-- APPEND (rule R141). -/
def execAppend (b : Bool) (now : Nat) (s : State) : Host.Outcome State Fault Refusal :=
  timestamped now (State.appendBit b now) s

/-- FINALIZE (rule R149). -/
def execFinalize (now : Nat) (s : State) : Host.Outcome State Fault Refusal :=
  timestamped now (State.finalizeFrame now) s

end Sys2Proof.Machine
end

