-- ==== Sys2Proof/Machine/EdgeClassifier.lean ====
section
/-! DEFINITION. The Edge Classifier: EDGE with its sub-cases RISE and FALL (spec/41_edge_classifier.md rules R120 to R133). -/

namespace Sys2Proof.Machine

/-- RISE's pseudocode: sync gap, spurious edge or accepted edge by the gap (rules R122 to R125). -/
def State.rise (t : Nat) (s : State) : State :=
  if s.sinceRef t > Config.syncGapMs then (s.finalizeFrame t).setRef t
  else if s.sinceRef t < Config.debounceMs then s.rollback
  else s.setRef t

/-- FALL's pseudocode: the pulse width gives the bit, which is appended (rule R127). -/
def State.fall (t : Nat) (s : State) : State :=
  s.appendBit (pulseBit (s.sinceRef t)) t

/-- EDGE's pseudocode (rule R121). -/
def State.onEdge (t : Nat) (lvl : Bool) (s : State) : State :=
  if pulseLevel lvl s.inverted then (s.driveIndicator lvl).rise t
  else (s.driveIndicator lvl).fall t

/-- EDGE (rule R121). -/
def execEdge (t : Nat) (lvl : Bool) (s : State) : Host.Outcome State Fault Refusal :=
  timestamped t (State.onEdge t lvl) s

end Sys2Proof.Machine
end

