-- ==== Sys2Proof/Machine/Queries.lean ====
section
/-! DEFINITION. The reader's other operations: GETTIME, ISSYNCED and NOP (spec/43_queries_and_outputs.md rules R170 to R183). -/

namespace Sys2Proof.Machine

/-- NOP (rule R182): reads nothing, writes nothing, returns nothing. -/
def execNop (s : State) : Host.Outcome State Fault Refusal := .next s

/-- GETTIME (rule R171): time of day from the live Seconds Clock, date from DecodedTime. -/
def execGettime (s : State) : Host.Outcome State Fault Refusal :=
  .next (s.returnResult (.gettime s.ss s.mm s.hh s.dt.day s.dt.month s.dt.year))

/-- The Trust Evaluator's answer (rule R176): "day or month still zero", or more than 120000 ms old, is false. -/
def State.synced (s : State) (now : Nat) : Bool :=
  if s.dt.day = 0 ∨ s.dt.month = 0 then false
  else if now - s.last_sync > Config.staleMs then false
  else true

/-- ISSYNCED (rule R176). -/
def execIssynced (now : Nat) (s : State) : Host.Outcome State Fault Refusal :=
  timestamped now (fun s => s.returnResult (.issynced (s.synced now))) s

end Sys2Proof.Machine
end

