-- ==== Sys2Proof/Machine/Dispatch.lean ====
section
/-! DEFINITION. One arm per constructor of `Instr`, each one call of the instruction's meaning (spec/30_encoding.md rule R95). -/

namespace Sys2Proof.Machine

def exec (i : Instr) (s : State) : Host.Outcome State Fault Refusal :=
  match i with
  | .nop => Sys2Proof.Machine.execNop s
  | .tick => Sys2Proof.Machine.execTick s
  | .edge t lvl => Sys2Proof.Machine.execEdge t lvl s
  | .append b now => Sys2Proof.Machine.execAppend b now s
  | .finalize now => Sys2Proof.Machine.execFinalize now s
  | .readtime => Sys2Proof.Machine.execReadtime s
  | .gettime => Sys2Proof.Machine.execGettime s
  | .issynced now => Sys2Proof.Machine.execIssynced now s

end Sys2Proof.Machine
end

