-- ==== Sys2Proof/Machine/Step.lean ====
section
/-! DEFINITION. One step: the next entry of the input port is consumed by one atomic operation (spec/20_memory.md rules R64, R66;
spec/30_encoding.md rule R94: "The hardware consumes one event word per step"). With nothing at the input the hardware does
nothing: "between events nothing changes" (spec/00_scope.md rule R19). -/

namespace Sys2Proof.Machine

def step (s : State) : Host.Outcome State Fault Refusal :=
  match s.inputs with
  | [] => .next s
  | .word w :: rest => exec (decode w) (s.consume rest)
  | .operation i :: rest => exec i (s.consume rest)
  | .reset inv :: rest => .next ((s.consume rest).applyReset inv)

/-- `s` with the event word `w` of `nbits` bits next at the input port; bits above `nbits` are 0. -/
def State.withFetchWord (s : State) (nbits w : Nat) : State := s.offerWord (w % 2 ^ nbits)

end Sys2Proof.Machine
end

