-- ==== Sys2Proof/Machine/Assembly.lean ====
section
/-! DEFINITION. The textual syntax of the operations and the pseudo-operations that expand to them (spec/30_encoding.md rules R101, R102).
No meaning depends on this file: "Each expands to the operations on the right; none adds semantics". -/

namespace Sys2Proof.Machine

/-- One bit in the text form. -/
def bitText (b : Bool) : String := if b then "1" else "0"

/-- The text of an operation, operands in decimal (rule R101). -/
def instrText : Instr → String
  | .nop => "NOP"
  | .tick => "TICK"
  | .edge t lvl => "EDGE " ++ toString t ++ " " ++ bitText lvl
  | .append b now => "APPEND " ++ bitText b ++ " " ++ toString now
  | .finalize now => "FINALIZE " ++ toString now
  | .readtime => "READTIME"
  | .gettime => "GETTIME"
  | .issynced now => "ISSYNCED " ++ toString now

/-- `RISE t` for the polarity `inv` (rule R102). -/
def riseAt (inv : Bool) (t : Nat) : Instr := .edge t (true ^^ inv)

/-- `FALL t` for the polarity `inv` (rule R102). -/
def fallAt (inv : Bool) (t : Nat) : Instr := .edge t (false ^^ inv)

/-- The pseudo-operations of rule R102. -/
inductive PseudoOp where
  | rise (t : Nat)
  | fall (t : Nat)
  | ticks (n : Nat)
  | pulse (t w : Nat)
  | second (t : Nat) (b : Bool)
  | frame (t0 : Nat) (bits : Memory)
  | mark (t : Nat)
  deriving DecidableEq, Repr

/-- `PULSE t w`. -/
def pulseAt (inv : Bool) (t w : Nat) : List Instr := [riseAt inv t, fallAt inv (t + w)]

/-- `SECOND t b`, with the pulse widths rule R102 uses (100 ms and 200 ms, marked as general knowledge by the spec's item G2). -/
def secondAt (inv : Bool) (t : Nat) (b : Bool) : List Instr := pulseAt inv t (if b then 200 else 100)

/-- The operations a pseudo-operation stands for (rule R102). -/
def PseudoOp.expand (inv : Bool) : PseudoOp → List Instr
  | .rise t => [riseAt inv t]
  | .fall t => [fallAt inv t]
  | .ticks n => List.replicate n .tick
  | .pulse t w => pulseAt inv t w
  | .second t b => secondAt inv t b
  | .frame t0 bits => (List.range 59).flatMap fun s => secondAt inv (t0 + 1000 * s) (bits.bit s)
  | .mark t => [riseAt inv t]

end Sys2Proof.Machine
end

