-- ==== Sys2Proof/Safety.lean ====
section
/-! DEFINITION. The terms the claims are stated in: sequences of operations (spec/00_scope.md rule R3), the registers apart from the
ports, when an operation commits or rolls back, the invariant of spec/10_state.md rule R38, what the parity flags hold in a frame
received without rollback (spec/42_frame_decoder.md rule R148), the clock reading (spec/40_seconds_clock.md rule R107), and frames as
sequences of operations (spec/30_encoding.md rules R86, R102). -/

namespace Sys2Proof.Machine

/-! ## Sequences of operations -/

/-- The operations one after another, each atomic, stopping where one is given no next state (rules R3, R64). -/
def execAll : List Instr → State → Host.Outcome State Fault Refusal
  | [], s => .next s
  | i :: rest, s =>
    match exec i s with
    | .next s' => execAll rest s'
    | .fault r => .fault r
    | .refused r => .refused r

/-- The registers of rule R21 and `INVERTED`, the ports and the premise's bookkeeping blanked. -/
def State.registers (s : State) : State :=
  { s with indicator := none, results := [], lastTime := 0, inputs := [] }

/-- READTIME, GETTIME, ISSYNCED and NOP, the operations of the reader (rule R183). -/
def isReaders : Instr → Bool
  | .nop => true
  | .readtime => true
  | .gettime => true
  | .issynced _ => true
  | .tick => false
  | .edge _ _ => false
  | .append _ _ => false
  | .finalize _ => false

/-! ## Rise, rollback and commit -/

/-- An EDGE to the raw level `lvl` is a RISE (rules R87, R121). -/
def State.isRise (s : State) (lvl : Bool) : Prop := (lvl ^^ s.inverted) = true

/-- The operation is a spurious RISE: it rolls `pos` back (rule R124). -/
def State.RollsBack (s : State) : Instr → Prop
  | .edge t lvl => s.isRise lvl ∧ t - s.ref < 300
  | _ => False

/-- The frame in the buffer would be accepted (rules R150, R151). -/
def State.FrameReady (s : State) : Prop :=
  s.pos.toNat = 59 ∧ s.par_min = s.buf.bit 28 ∧ s.par_hour = s.buf.bit 35 ∧ s.par_date = s.buf.bit 58

/-- The operation commits: FINALIZE, or a RISE whose gap exceeds 1200 ms, on an acceptable frame (rule R163). -/
def State.Commits (s : State) : Instr → Prop
  | .finalize _ => s.FrameReady
  | .edge t lvl => s.isRise lvl ∧ 1200 < t - s.ref ∧ s.FrameReady
  | _ => False

/-! ## Invariants -/

/-- The invariants of rule R38 that speak of one state. The premise of rule R16 enters as the bounds by `lastTime`. -/
structure State.Inv (s : State) : Prop where
  tick_le : s.tick.toNat ≤ 999
  ss_le : s.ss.toNat ≤ 59
  mm_le : s.mm.toNat ≤ 85
  hh_le : s.hh.toNat ≤ 45
  pos_le : s.pos.toNat ≤ 59
  dt_second : s.dt.second = 0
  dt_minute_le : s.dt.minute.toNat ≤ 85
  dt_hour_le : s.dt.hour.toNat ≤ 45
  dt_day_le : s.dt.day.toNat ≤ 45
  dt_month_le : s.dt.month.toNat ≤ 25
  dt_year : s.dt.year = 0 ∨ (2000 ≤ s.dt.year.toNat ∧ s.dt.year.toNat ≤ 2165)
  never_committed : s.dt.year = 0 → s.dt = DecodedTime.reset ∧ s.last_sync = 0
  last_sync_le : s.last_sync ≤ s.lastTime
  ref_le : s.ref ≤ s.lastTime

/-- "`buf[p]` = 0 for every `p` >= `pos`" (rule R38). -/
def State.CleanTail (s : State) : Prop := ∀ p, s.pos.toNat ≤ p → s.buf.bit p = false

/-- What the parity flags hold while no rollback has happened since the last FINALIZE (rules R80, R148): inside a field the running parity
is the exclusive or of the field's cells received so far, and behind a field its saved parity is that of the field's data cells. -/
structure State.ParityTracksBuffer (s : State) : Prop where
  in_minute : 21 < s.pos.toNat → s.pos.toNat ≤ 28 → s.par_run = s.buf.parity 21 (s.pos.toNat - 21)
  in_hour : 29 < s.pos.toNat → s.pos.toNat ≤ 35 → s.par_run = s.buf.parity 29 (s.pos.toNat - 29)
  in_date : 36 < s.pos.toNat → s.pos.toNat ≤ 58 → s.par_run = s.buf.parity 36 (s.pos.toNat - 36)
  minute_saved : 28 < s.pos.toNat → s.par_min = s.buf.parity 21 7
  hour_saved : 35 < s.pos.toNat → s.par_hour = s.buf.parity 29 6
  date_saved : 58 < s.pos.toNat → s.par_date = s.buf.parity 36 22

/-! ## The clock reading -/

/-- The clock reading in ticks, `T` of rule R107. -/
def State.clockReading (s : State) : Nat :=
  s.tick.toNat + 1000 * (s.ss.toNat + 60 * (s.mm.toNat + 60 * s.hh.toNat))

/-- The clock's four registers are in range (rule R107). -/
structure State.ClockInRange (s : State) : Prop where
  tick_le : s.tick.toNat ≤ 999
  ss_le : s.ss.toNat ≤ 59
  mm_le : s.mm.toNat ≤ 59
  hh_le : s.hh.toNat ≤ 23

/-! ## Frames -/

/-- The frame `B` is "correctly-parity-balanced": each parity bit is the exclusive or of its field's data bits (rule R80). -/
def Memory.Balanced (B : Memory) : Prop :=
  B.bit 28 = B.parity 21 7 ∧ B.bit 35 = B.parity 29 6 ∧ B.bit 58 = B.parity 36 22

/-- The frame `B` with the bit at `k` inverted (rule R164). -/
def Memory.flip (B : Memory) (k : Nat) : Memory := B ^^^ (1#59 <<< k)

/-- The 59 APPENDs of the frame `B`, lowest address first, all at time `now` (rules R56, R148). -/
def frameAppends (B : Memory) (now : Nat) : List Instr :=
  (List.range 59).map fun p => .append (B.bit p) now

/-- The edges of a whole frame on the line: in each of the seconds 0..58 from `t0` on a pulse that begins with the second and has the width
`width s` (rules R84, R86, R102). -/
def frameEdges (inv : Bool) (t0 : Nat) (width : Nat → Nat) : List Instr :=
  (List.range 59).flatMap fun s => [riseAt inv (t0 + 1000 * s), fallAt inv (t0 + 1000 * s + width s)]

/-- `width` transmits the frame `B`: each pulse is shorter than 140 ms for a 0, at least 140 ms for a 1, and over within its second (rule R84). -/
def Transmits (width : Nat → Nat) (B : Memory) : Prop :=
  ∀ s, s < 59 → (width s < 140 ↔ B.bit s = false) ∧ width s ≤ 1000

end Sys2Proof.Machine
end

