-- ==== Sys2Proof/Certificates/Slice0/Obligations.lean ====
section
/-! DEFINITION. The statements for the provers, each a `Prop`, one entry of OBLIGATIONS.json each. Where a statement rests on a choice of
the model and not on a rule, its docstring names the log entry. -/

open Sys2Proof Sys2Proof.Machine Host

/-! ## Encoding and the step -/

/-- Every operation that has an event word is read back from its word (rules R94, R95, R98). -/
def Obligations.DecodeOfEncodeIsTheInstruction : Prop :=
  ∀ i : Instr, i.wf = true → decode (encode i) = i

/-- Rule R96: all eight operation codes are assigned, every word is one of them, the fields an operation does not use are ignored, the canonical
encoding has zeros there, and the opcode table gives match and mask on the operation code only. -/
def Obligations.EveryEventWordDecodesByItsCode : Prop :=
  (∀ w : EventWord, ∃ op lvl ts, w = eventWord op lvl ts) ∧
  (∀ (lvl : Bool) (ts : BitVec 32),
    decode (eventWord 0b000 lvl ts) = .nop ∧
    decode (eventWord 0b001 lvl ts) = .tick ∧
    decode (eventWord 0b010 lvl ts) = .edge ts.toNat lvl ∧
    decode (eventWord 0b011 lvl ts) = .append lvl ts.toNat ∧
    decode (eventWord 0b100 lvl ts) = .finalize ts.toNat ∧
    decode (eventWord 0b101 lvl ts) = .readtime ∧
    decode (eventWord 0b110 lvl ts) = .gettime ∧
    decode (eventWord 0b111 lvl ts) = .issynced ts.toNat) ∧
  (∀ i : Instr, (i.timestamp = none → (encode i).lvl = false ∧ (encode i).ts = 0) ∧
    (∀ now, i = .finalize now ∨ i = .issynced now → (encode i).lvl = false)) ∧
  (∀ r ∈ opcodeTable, r.mask = eventWord 0b111 false 0)

/-- Rules R95, R96 as spec/opcode_table.json has them: a word belongs to exactly the row whose mnemonic its decoding has. -/
def Obligations.OpcodeTableRowsPartitionTheWords : Prop :=
  ∀ w : EventWord, ∀ r ∈ opcodeTable, (w &&& r.mask = r.pattern ↔ (decode w).mnemonic = r.mnemonic)

/-- Re-encoding a decoded word gives the canonical word, which decodes to the same operation; a number of more than 36 bits is no event word,
and only such a number (rules R94, R96). -/
def Obligations.CanonicalWordsAndNonWords : Prop :=
  (∀ w : EventWord, (decode w).wf = true ∧ decode (encode (decode w)) = decode w) ∧
  (∀ n : Nat, decodeNumber n = .error .widerThanEventWord ↔ 2 ^ 36 ≤ n) ∧
  (∀ w : EventWord, decodeNumber w.toNat = .ok (decode w))

/-- Event words written out from rule R94 and spec/95_test_vectors.md section 2.7 decode to the operations they stand for. -/
def Obligations.SpecEventWordsDecode : Prop :=
  decode 0x000000000 = .nop ∧ decode 0x200000000 = .tick ∧
  decode 0x500002710 = .edge 10000 true ∧ decode 0x400002774 = .edge 10100 false ∧
  decode 0x600000000 = .append false 0 ∧ decode 0x700000000 = .append true 0 ∧
  decode 0x800011170 = .finalize 70000 ∧ decode 0xA00000000 = .readtime ∧
  decode 0xC00000000 = .gettime ∧ decode 0xE0002E630 = .issynced 190000

/-- One step consumes one entry of the input port: an event word runs as the operation it decodes to, an operation as itself, a reset as reset;
with nothing at the port nothing changes (rules R19, R94, R210). The port as a list is the model's (notes/assumptions/2.md). -/
def Obligations.StepRunsTheNextInput : Prop :=
  ∀ (s : State) (rest : List Input),
    (∀ w, s.inputs = .word w :: rest → step s = exec (decode w) { s with inputs := rest }) ∧
    (∀ i, s.inputs = .operation i :: rest → step s = exec i { s with inputs := rest }) ∧
    (∀ inv, s.inputs = .reset inv :: rest →
      step s = .next { State.resetWith inv with inputs := rest, results := s.results }) ∧
    (s.inputs = [] → step s = .next s)

/-- An operation offered at the port by its event word is the operation the next step runs, on the state it was offered to. -/
def Obligations.OfferedWordIsRunByTheNextStep : Prop :=
  ∀ (i : Instr) (s : State), i.wf = true → step (s.withFetchWord 40 (encode i).toNat) = exec i s

/-! ## The timestamp premise -/

/-- Rules R16, R189: an operation has a next state unless its timestamp is lower than one given earlier, and is refused then; nothing faults. -/
def Obligations.RefusedExactlyWhenTimestampDecreases : Prop :=
  ∀ (i : Instr) (s : State),
    ((∀ t, i.timestamp = some t → s.lastTime ≤ t) → ∃ s', exec i s = .next s' ∧ s'.lastTime = i.timestamp.getD s.lastTime) ∧
    (∀ t, i.timestamp = some t → t < s.lastTime → exec i s = .refused .timestampDecreased)

/-- Rule R16 over a sequence: it runs to its end exactly when its timestamps, after those given before, never decrease. -/
def Obligations.SequenceRunsExactlyUnderThePremise : Prop :=
  ∀ (is : List Instr) (s : State),
    (∃ s', execAll is s = .next s') ↔ List.Pairwise (· ≤ ·) (s.lastTime :: is.filterMap Instr.timestamp)

/-! ## The Seconds Clock -/

/-- Rule R106: TICK, by how far its carry runs, and its canonical word. -/
def Obligations.TickCountsWithCarry : Prop :=
  encode .tick = 0x200000000 ∧ decode 0x200000000 = .tick ∧
  ∀ s : State,
    (∀ n : BitVec 10, s.tick.toNat + 1 < 1000 → n.toNat = s.tick.toNat + 1 → exec .tick s = .next { s with tick := n }) ∧
    (∀ n : BitVec 6, 1000 ≤ s.tick.toNat + 1 → s.ss.toNat + 1 < 60 → n.toNat = s.ss.toNat + 1 →
      exec .tick s = .next { s with tick := 0, ss := n }) ∧
    (∀ n : BitVec 7, 1000 ≤ s.tick.toNat + 1 → 60 ≤ s.ss.toNat + 1 → s.mm.toNat + 1 < 60 → n.toNat = s.mm.toNat + 1 →
      exec .tick s = .next { s with tick := 0, ss := 0, mm := n }) ∧
    (∀ n : BitVec 6, 1000 ≤ s.tick.toNat + 1 → 60 ≤ s.ss.toNat + 1 → 60 ≤ s.mm.toNat + 1 → s.hh.toNat + 1 < 24 →
      n.toNat = s.hh.toNat + 1 → exec .tick s = .next { s with tick := 0, ss := 0, mm := 0, hh := n }) ∧
    (1000 ≤ s.tick.toNat + 1 → 60 ≤ s.ss.toNat + 1 → 60 ≤ s.mm.toNat + 1 → 24 ≤ s.hh.toNat + 1 →
      exec .tick s = .next { s with tick := 0, ss := 0, mm := 0, hh := 0 })

/-- Rule R107: `n` TICKs advance an in-range clock by `n` modulo a day, and nothing outside the clock changes. -/
def Obligations.TicksAdvanceTheClockModuloADay : Prop :=
  ∀ (s : State) (n : Nat), s.ClockInRange →
    ∃ s', execAll (List.replicate n .tick) s = .next s' ∧
      s'.tick.toNat = (s.clockReading + n) % 86400000 % 1000 ∧
      s'.ss.toNat = (s.clockReading + n) % 86400000 / 1000 % 60 ∧
      s'.mm.toNat = (s.clockReading + n) % 86400000 / 60000 % 60 ∧
      s'.hh.toNat = (s.clockReading + n) % 86400000 / 3600000 ∧
      s' = { s with tick := s'.tick, ss := s'.ss, mm := s'.mm, hh := s'.hh }

/-- Rule R108: an out-of-range minute or hour returns to 0 with its next carry, and once in range the clock stays in range under TICK. -/
def Obligations.OutOfRangeClockReturnsToRange : Prop :=
  ∀ s : State,
    (s.tick.toNat = 999 → s.ss.toNat = 59 → 59 ≤ s.mm.toNat → 23 ≤ s.hh.toNat →
      exec .tick s = .next { s with tick := 0, ss := 0, mm := 0, hh := 0 }) ∧
    (s.tick.toNat = 999 → s.ss.toNat = 59 → 59 ≤ s.mm.toNat → s.hh.toNat < 23 →
      ∃ h : BitVec 6, h.toNat = s.hh.toNat + 1 ∧ exec .tick s = .next { s with tick := 0, ss := 0, mm := 0, hh := h }) ∧
    (s.ClockInRange → ∃ s', exec .tick s = .next s' ∧ s'.ClockInRange)

/-- Rule R110: READTIME returns the live hh:mm:ss and writes nothing; its canonical word. -/
def Obligations.ReadtimeReturnsTheClock : Prop :=
  encode .readtime = 0xA00000000 ∧ decode 0xA00000000 = .readtime ∧
  ∀ s : State, exec .readtime s = .next { s with results := s.results ++ [.readtime s.hh s.mm s.ss] }

/-! ## The Edge Classifier -/

/-- Rule R123: a RISE with a gap above 1200 ms does what FINALIZE does at its time, whatever `pos` is, and moves `ref`; it commits only at
position 59 with matching parities. -/
def Obligations.SyncGapRiseFinalizes : Prop :=
  ∀ (s : State) (t : Nat) (lvl : Bool), s.lastTime ≤ t → s.isRise lvl → 1200 < t - s.ref →
    ∃ f, exec (.finalize t) s = .next f ∧ f.buf = 0 ∧ f.pos = 0 ∧
      (¬ s.FrameReady → f.dt = s.dt ∧ f.last_sync = s.last_sync) ∧ (s.FrameReady → f.last_sync = t) ∧
      exec (.edge t lvl) s = .next { f with ref := t, indicator := some lvl }

/-- Rule R124: a RISE with a gap below 300 ms moves `pos` one back, not below 0, and changes no other register. -/
def Obligations.SpuriousRiseOnlyRollsBack : Prop :=
  ∀ (s : State) (t : Nat) (lvl : Bool), s.lastTime ≤ t → s.ref ≤ t → s.isRise lvl → t - s.ref < 300 →
    ∃ p : BitVec 6, p.toNat = s.pos.toNat - 1 ∧
      exec (.edge t lvl) s = .next { s with pos := p, indicator := some lvl, lastTime := t }

/-- Rule R125: a RISE with a gap of 300 to 1200 ms only moves `ref`. -/
def Obligations.AcceptedRiseOnlyMovesRef : Prop :=
  ∀ (s : State) (t : Nat) (lvl : Bool), s.lastTime ≤ t → s.isRise lvl → 300 ≤ t - s.ref → t - s.ref ≤ 1200 →
    exec (.edge t lvl) s = .next { s with ref := t, indicator := some lvl, lastTime := t }

/-- Rule R127: a FALL appends 0 for a width below 140 ms and 1 otherwise, as APPEND at its time does. -/
def Obligations.FallAppendsTheClassifiedBit : Prop :=
  ∀ (s : State) (t : Nat) (lvl : Bool), s.lastTime ≤ t → s.ref ≤ t → ¬ s.isRise lvl →
    (t - s.ref < 140 → ∃ a, exec (.append false t) s = .next a ∧ exec (.edge t lvl) s = .next { a with indicator := some lvl }) ∧
    (140 ≤ t - s.ref → ∃ a, exec (.append true t) s = .next a ∧ exec (.edge t lvl) s = .next { a with indicator := some lvl })

/-- Rule R87: with the other polarity the inverted raw level has the same effect. -/
def Obligations.PolarityOnlyRenamesTheLevels : Prop :=
  ∀ (s : State) (t : Nat) (lvl : Bool), s.lastTime ≤ t →
    ∃ s', exec (.edge t lvl) s = .next s' ∧
      exec (.edge t (!lvl)) { s with inverted := !s.inverted } =
        .next { s' with inverted := !s'.inverted, indicator := some (!lvl) }

/-- Rule R180: the indicator shows the raw level of the most recent EDGE, no operation depends on it, and it has no value before the first EDGE. -/
def Obligations.IndicatorIsAStatelessPassthrough : Prop :=
  (∀ inv, (State.resetWith inv).indicator = none) ∧
  ∀ (i : Instr) (s s' : State), exec i s = .next s' →
    (∀ t lvl, i = .edge t lvl → s'.indicator = some lvl) ∧
    ((∀ t lvl, i ≠ .edge t lvl) → s'.indicator = s.indicator) ∧
    ∀ x, ∃ y, exec i { s with indicator := x } = .next { s' with indicator := y }

/-- Rules R131, R212: after reset the first RISE is classified by its own timestamp. -/
def Obligations.FirstRiseIsClassifiedByItsTimestamp : Prop :=
  ∀ (inv lvl : Bool) (t : Nat), (lvl ^^ inv) = true →
    (t < 300 → exec (.edge t lvl) (State.resetWith inv) =
      .next { State.resetWith inv with indicator := some lvl, lastTime := t }) ∧
    (300 ≤ t → exec (.edge t lvl) (State.resetWith inv) =
      .next { State.resetWith inv with ref := t, indicator := some lvl, lastTime := t })

/-! ## The Frame Decoder -/

/-- Rule R142: below position 59 APPEND overwrites the cell at `pos` and leaves every other cell alone; at 59 there is no cell and the write changes nothing.
Besides, `pos` advances by one. -/
def Obligations.AppendStoresOneBitAtThePosition : Prop :=
  (∀ (m : Memory) (b : Bool), m.write 59 b = m) ∧
  ∀ (s : State) (b : Bool) (now : Nat), s.lastTime ≤ now → s.pos.toNat ≤ 58 →
    ∃ s', exec (.append b now) s = .next s' ∧ s'.pos.toNat = s.pos.toNat + 1 ∧
      s'.buf.bit s.pos.toNat = b ∧ (∀ q, q ≠ s.pos.toNat → s'.buf.bit q = s.buf.bit q) ∧
      s' = { s with
        buf := s'.buf, pos := s'.pos, par_run := s'.par_run, par_min := s'.par_min, par_hour := s'.par_hour,
        par_date := s'.par_date, lastTime := now }

/-- Rules R143, R144, R145: APPEND's effect on each parity flag, at every position it can start from; in a frame received without rollback the flag
saved at a field's end is the exclusive or of the field's data bits. -/
def Obligations.AppendUpdatesTheParityFlags : Prop :=
  ∀ (s : State) (b : Bool) (now : Nat), s.lastTime ≤ now →
    ∃ s', exec (.append b now) s = .next s' ∧
      (s.pos.toNat = 21 ∨ s.pos.toNat = 29 ∨ s.pos.toNat = 36 → s'.par_run = b) ∧
      (s.pos.toNat ≠ 21 → s.pos.toNat ≠ 29 → s.pos.toNat ≠ 36 → s'.par_run = (s.par_run ^^ b)) ∧
      s'.par_min = (if s.pos.toNat = 28 then s.par_run else s.par_min) ∧
      s'.par_hour = (if s.pos.toNat = 35 then s.par_run else s.par_hour) ∧
      s'.par_date = (if s.pos.toNat = 58 then s.par_run else s.par_date) ∧
      (s.ParityTracksBuffer →
        (s.pos.toNat = 28 → s'.par_min = s.buf.parity 21 7) ∧ (s.pos.toNat = 35 → s'.par_hour = s.buf.parity 29 6) ∧
        (s.pos.toNat = 58 → s'.par_date = s.buf.parity 36 22))

/-- Rule R146: an APPEND that starts at position 59 cannot commit and empties the buffer; one that starts lower, at 58 too, advances `pos` by one and
finalizes nothing. -/
def Obligations.SixtiethBitDiscardsTheFrame : Prop :=
  ∀ (s : State) (b : Bool) (now : Nat), s.lastTime ≤ now →
    (s.pos.toNat = 59 →
      exec (.append b now) s = .next { s with buf := 0, pos := 0, par_run := (s.par_run ^^ b), lastTime := now }) ∧
    (s.pos.toNat ≤ 58 → ∃ s', exec (.append b now) s = .next s' ∧ s'.pos.toNat = s.pos.toNat + 1 ∧
      s'.buf.bit s.pos.toNat = b ∧ s'.dt = s.dt ∧ s'.last_sync = s.last_sync)

/-- Rules R149, R150, R151, R160, R162: FINALIZE on a complete frame whose three parities match commits the converted fields in one step and
empties the buffer; no value overflows its register. On any other frame it only empties the buffer. In both cases the parity flags, `ref` and
`tick` stay. Its event word, with `lvl` ignored. -/
def Obligations.FinalizeCommitsOrDiscards : Prop :=
  encode (.finalize 70000) = 0x800011170 ∧
  (∀ (lvl : Bool) (ts : BitVec 32), decode (eventWord 0b100 lvl ts) = .finalize ts.toNat) ∧
  ∀ (s : State) (now : Nat), s.lastTime ≤ now →
    (s.pos.toNat = 59 → s.par_min = s.buf.bit 28 → s.par_hour = s.buf.bit 35 → s.par_date = s.buf.bit 58 →
      ∃ d : DecodedTime,
        d.second.toNat = 0 ∧ d.minute.toNat = bcd2bin (s.buf.read 21 7) ∧ d.hour.toNat = bcd2bin (s.buf.read 29 6) ∧
        d.day.toNat = bcd2bin (s.buf.read 36 6) ∧ d.month.toNat = bcd2bin (s.buf.read 45 5) ∧
        d.year.toNat = 2000 + bcd2bin (s.buf.read 50 8) ∧
        exec (.finalize now) s = .next { s with
          buf := 0, pos := 0, dt := d, last_sync := now, ss := 0, mm := d.minute, hh := d.hour, lastTime := now }) ∧
    ((s.pos.toNat ≠ 59 ∨ s.par_min ≠ s.buf.bit 28 ∨ s.par_hour ≠ s.buf.bit 35 ∨ s.par_date ≠ s.buf.bit 58) →
      exec (.finalize now) s = .next { s with buf := 0, pos := 0, lastTime := now })

/-- Rule R163: only FINALIZE itself and a RISE with a gap above 1200 ms can commit, only at position 59 with matching parities, and `last_sync`
is then that operation's timestamp. -/
def Obligations.OnlyASyncGapOrFinalizeCommits : Prop :=
  ∀ (i : Instr) (s s' : State), exec i s = .next s' → (s'.dt ≠ s.dt ∨ s'.last_sync ≠ s.last_sync) →
    s.Commits i ∧ i.timestamp = some s'.last_sync

/-- Rule R70 (and the first sentences of R29): the six fields of DecodedTime, `last_sync` and the clock's hh:mm:ss change together at a commit; otherwise DecodedTime and
`last_sync` stay. -/
def Obligations.DecodedTimeIsReplacedAsOneUnit : Prop :=
  ∀ (i : Instr) (s s' : State), exec i s = .next s' →
    (s.Commits i → s'.dt = decodedTime s.buf ∧ i.timestamp = some s'.last_sync ∧ s'.ss = 0 ∧ s'.mm = s'.dt.minute ∧
      s'.hh = s'.dt.hour ∧ s'.tick = s.tick ∧ s'.buf = 0 ∧ s'.pos = 0) ∧
    (¬ s.Commits i → s'.dt = s.dt ∧ s'.last_sync = s.last_sync)

/-- Rule R152: the conversion's formula, that its subtraction never goes below 0, and that it takes `16*T + U` to `10*T + U`, for invalid digits too. -/
def Obligations.BcdConversionOfTensAndOnes : Prop :=
  (∀ v : Nat, bcd2bin v = v - v / 16 * 6 ∧ v / 16 * 6 ≤ v) ∧
  ∀ T U : Nat, U ≤ 15 → bcd2bin (16 * T + U) = 10 * T + U

/-- Rule R57: the buffer as one number is the sum of its cells weighed by their address, a field is that number shifted and masked, and so the lowest address of
a field is its least significant bit. -/
def Obligations.FieldReadWeighsTheLowestAddressLeast : Prop :=
  ∀ (m : Memory) (o w : Nat), o + w ≤ 59 →
    m.toNat = ((List.range 59).map fun p => (m.bit p).toNat * 2 ^ p).sum ∧
    m.read o w = m.toNat / 2 ^ o % 2 ^ w ∧
    m.read o w = ((List.range w).map fun k => (m.bit (o + k)).toNat * 2 ^ k).sum

/-- Rule R148: after exactly the APPENDs of a frame from an empty buffer, the buffer is the frame and each saved parity is the exclusive or of its
field's data bits. -/
def Obligations.FrameAppendsLeaveItsBitsAndParities : Prop :=
  ∀ (B : Memory) (s : State) (now : Nat), s.lastTime ≤ now → s.pos = 0 →
    ∃ s', execAll (frameAppends B now) s = .next s' ∧ s'.buf = B ∧ s'.pos.toNat = 59 ∧
      s'.par_min = B.parity 21 7 ∧ s'.par_hour = B.parity 29 6 ∧ s'.par_date = B.parity 36 22 ∧
      s'.par_run = (B.parity 36 22 ^^ B.bit 58) ∧
      s' = { s with
        buf := s'.buf, pos := s'.pos, par_run := s'.par_run, par_min := s'.par_min, par_hour := s'.par_hour,
        par_date := s'.par_date, lastTime := now }

/-- Rule R164: a balanced frame received without rollback commits; with any one parity-relevant bit (21 to 58) inverted it does not; with a prefix
bit (0 to 20) inverted it commits the same values. -/
def Obligations.SingleFlippedBitIsNeverCommitted : Prop :=
  ∀ (B : Memory) (s : State) (now k : Nat), s.lastTime ≤ now → s.pos = 0 → B.Balanced →
    (∃ s', execAll (frameAppends B now ++ [.finalize now]) s = .next s' ∧
      s'.dt = decodedTime B ∧ s'.last_sync = now ∧ s'.ss = 0 ∧ s'.mm = (decodedTime B).minute ∧ s'.hh = (decodedTime B).hour) ∧
    (21 ≤ k → k ≤ 58 → ∃ s', execAll (frameAppends (B.flip k) now ++ [.finalize now]) s = .next s' ∧
      s'.dt = s.dt ∧ s'.last_sync = s.last_sync ∧ s'.ss = s.ss ∧ s'.mm = s.mm ∧ s'.hh = s.hh) ∧
    (k ≤ 20 → ∃ s', execAll (frameAppends (B.flip k) now ++ [.finalize now]) s = .next s' ∧
      s'.dt = decodedTime B ∧ s'.last_sync = now ∧ s'.ss = 0 ∧ s'.mm = (decodedTime B).minute ∧ s'.hh = (decodedTime B).hour)

/-- Rules R166, R220: a 1 that is appended, rolled back by a spurious RISE and appended again is counted twice in the running parity, except where the
position is a reset boundary; the buffer and the position are as after one append. -/
def Obligations.RolledBackBitStaysInTheParity : Prop :=
  ∀ (s : State) (t : Nat) (lvl : Bool), s.lastTime ≤ t → s.ref ≤ t → t - s.ref < 300 → s.isRise lvl → s.pos.toNat ≤ 58 →
    ∃ one twice, exec (.append true t) s = .next one ∧
      execAll [.append true t, .edge t lvl, .append true t] s = .next twice ∧
      twice.buf = one.buf ∧ twice.pos = one.pos ∧
      (s.pos.toNat ≠ 21 → s.pos.toNat ≠ 29 → s.pos.toNat ≠ 36 → twice.par_run = s.par_run ∧ one.par_run = !s.par_run) ∧
      (s.pos.toNat = 21 ∨ s.pos.toNat = 29 ∨ s.pos.toNat = 36 → twice.par_run = true ∧ one.par_run = true)

/-- Rules R80, R148 as an invariant: while no spurious RISE rolls back, the flags hold the parities of what the buffer holds. -/
def Obligations.ParityTracksTheBufferWithoutRollback : Prop :=
  (∀ inv, (State.resetWith inv).ParityTracksBuffer) ∧
  ∀ (i : Instr) (s s' : State), s.ParityTracksBuffer → ¬ s.RollsBack i → exec i s = .next s' → s'.ParityTracksBuffer

/-- Rule R38, its item on `buf`: while no spurious RISE rolls back, every cell from `pos` on is 0. -/
def Obligations.CellsBehindThePositionAreClear : Prop :=
  (∀ inv, (State.resetWith inv).CleanTail) ∧
  ∀ (i : Instr) (s s' : State), s.CleanTail → ¬ s.RollsBack i → exec i s = .next s' → s'.CleanTail

/-- Rule R227: a complete frame waits for the sync-gap RISE. A further FALL discards it, an accepted RISE leaves it in the buffer, and a spurious RISE moves
back to 58, after which a sync gap discards it. -/
def Obligations.CompleteFrameWaitsForTheMarker : Prop :=
  ∀ (s : State) (t : Nat) (lvl : Bool), s.lastTime ≤ t → s.ref ≤ t → s.pos.toNat = 59 →
    (¬ s.isRise lvl → ∃ s', exec (.edge t lvl) s = .next s' ∧ s'.buf = 0 ∧ s'.pos = 0 ∧ s'.dt = s.dt ∧ s'.last_sync = s.last_sync) ∧
    (s.isRise lvl → 300 ≤ t - s.ref → t - s.ref ≤ 1200 →
      ∃ s', exec (.edge t lvl) s = .next s' ∧ s'.buf = s.buf ∧ s'.pos = s.pos ∧ s'.dt = s.dt ∧ s'.last_sync = s.last_sync) ∧
    (s.isRise lvl → t - s.ref < 300 → ∀ u, s.ref + 1200 < u → t ≤ u →
      ∃ m s', exec (.edge t lvl) s = .next m ∧ m.pos.toNat = 58 ∧ exec (.edge u lvl) m = .next s' ∧
        s'.buf = 0 ∧ s'.pos = 0 ∧ s'.dt = s.dt ∧ s'.last_sync = s.last_sync)

/-- Rules R84, R86, R149: a balanced frame sent as one pulse a second and closed by a gap above 1200 ms is committed with the marker's timestamp, whatever the
polarity and the widths on their side of 140 ms. One that is not balanced commits nothing: DecodedTime, `last_sync` and hh:mm:ss stay as they were or, where
a ready frame was waiting, as the frame's first RISE committed that one. -/
def Obligations.FrameOnTheLineIsDecoded : Prop :=
  ∀ (B : Memory) (width : Nat → Nat) (s : State) (t0 tm : Nat),
    Transmits width B → s.lastTime ≤ t0 → s.ref ≤ t0 →
    (1200 < t0 - s.ref ∨ (300 ≤ t0 - s.ref ∧ s.pos = 0)) → 1200 < tm - (t0 + 58000) →
    (B.Balanced →
      ∃ s', execAll (frameEdges s.inverted t0 width ++ [riseAt s.inverted tm]) s = .next s' ∧
        s'.dt = decodedTime B ∧ s'.last_sync = tm ∧ s'.ss = 0 ∧ s'.mm = (decodedTime B).minute ∧ s'.hh = (decodedTime B).hour ∧
        s'.tick = s.tick ∧ s'.ref = tm ∧ s'.pos = 0 ∧ s'.buf = 0) ∧
    (¬ B.Balanced → ¬ s.FrameReady →
      ∃ s', execAll (frameEdges s.inverted t0 width ++ [riseAt s.inverted tm]) s = .next s' ∧
        s'.dt = s.dt ∧ s'.last_sync = s.last_sync ∧ s'.ss = s.ss ∧ s'.mm = s.mm ∧ s'.hh = s.hh ∧
        s'.tick = s.tick ∧ s'.ref = tm ∧ s'.pos = 0 ∧ s'.buf = 0) ∧
    (¬ B.Balanced → s.FrameReady →
      ∃ s', execAll (frameEdges s.inverted t0 width ++ [riseAt s.inverted tm]) s = .next s' ∧
        s'.dt = decodedTime s.buf ∧ s'.last_sync = t0 ∧ s'.ss = 0 ∧ s'.mm = (decodedTime s.buf).minute ∧
        s'.hh = (decodedTime s.buf).hour ∧ s'.tick = s.tick ∧ s'.ref = tm ∧ s'.pos = 0 ∧ s'.buf = 0)

/-! ## Queries -/

/-- Rule R171: GETTIME returns the live time of day and the date of the last commit, and writes nothing; its canonical word. -/
def Obligations.GettimeReturnsClockAndDate : Prop :=
  encode .gettime = 0xC00000000 ∧ decode 0xC00000000 = .gettime ∧
  ∀ s : State, exec .gettime s =
    .next { s with results := s.results ++ [.gettime s.ss s.mm s.hh s.dt.day s.dt.month s.dt.year] }

/-- Rule R176: ISSYNCED answers true exactly when day and month are not 0 and at most 120000 ms have passed since the last commit; its example word. -/
def Obligations.IssyncedAnswers : Prop :=
  encode (.issynced 190000) = 0xE0002E630 ∧ decode 0xE0002E630 = .issynced 190000 ∧
  ∀ (s : State) (now : Nat), s.lastTime ≤ now → s.last_sync ≤ now →
    ((s.dt.day = 0 ∨ s.dt.month = 0) →
      exec (.issynced now) s = .next { s with results := s.results ++ [.issynced false], lastTime := now }) ∧
    (120000 < now - s.last_sync →
      exec (.issynced now) s = .next { s with results := s.results ++ [.issynced false], lastTime := now }) ∧
    (s.dt.day ≠ 0 → s.dt.month ≠ 0 → now - s.last_sync ≤ 120000 →
      exec (.issynced now) s = .next { s with results := s.results ++ [.issynced true], lastTime := now })

/-- Rule R182: NOP changes nothing and returns nothing; its canonical word. -/
def Obligations.NopChangesNothing : Prop :=
  encode .nop = 0x000000000 ∧ decode 0x000000000 = .nop ∧
  ∀ s : State, exec .nop s = .next s

/-- Rules R177, R178: after a commit ISSYNCED is true up to 120000 ms later if the committed day and month are not 0, false after that, and false at any
time if one of them is 0; after reset it is false. -/
def Obligations.SyncedAfterACommitUntilStale : Prop :=
  ∀ (s : State) (now n : Nat), s.lastTime ≤ now → now ≤ n → s.FrameReady →
    ((decodedTime s.buf).day ≠ 0 → (decodedTime s.buf).month ≠ 0 →
      ∃ s', execAll [.finalize now, .issynced n] s = .next s' ∧
        s'.results = s.results ++ [.issynced (decide (n ≤ now + 120000))]) ∧
    ((decodedTime s.buf).day = 0 ∨ (decodedTime s.buf).month = 0 →
      ∃ s', execAll [.finalize now, .issynced n] s = .next s' ∧ s'.last_sync = now ∧
        s'.results = s.results ++ [.issynced false]) ∧
    (∀ inv, ∃ s', exec (.issynced n) (State.resetWith inv) = .next s' ∧ s'.results = [.issynced false])

/-- Rule R183: the reader's operations write no register, no matter which they are, and always have a next state under the premise. -/
def Obligations.ReaderWritesNoRegister : Prop :=
  ∀ (i : Instr) (s : State), isReaders i = true → (∀ t, i.timestamp = some t → s.lastTime ≤ t) →
    ∃ s', exec i s = .next s' ∧ s'.registers = s.registers ∧ s'.inputs = s.inputs ∧ s'.indicator = s.indicator

/-- Rule R183: issuing or omitting the reader's operations never changes what a later operation does or returns: from states with the same registers an
operation yields the same registers and returns the same results. -/
def Obligations.OnlyRegistersDecideWhatOperationsDo : Prop :=
  ∀ (i : Instr) (s r s' r' : State), s.registers = r.registers → exec i s = .next s' → exec i r = .next r' →
    s'.registers = r'.registers ∧ ∃ out, s'.results = s.results ++ out ∧ r'.results = r.results ++ out

/-! ## Reset, configuration, ownership, invariants -/

/-- Rule R37: after reset every register is 0, whatever the construction value of `INVERTED`, which it holds. -/
def Obligations.ResetLeavesEveryRegisterZero : Prop :=
  ∀ inv : Bool,
    (State.resetWith inv).tick = 0 ∧ (State.resetWith inv).ss = 0 ∧ (State.resetWith inv).mm = 0 ∧ (State.resetWith inv).hh = 0 ∧
    (State.resetWith inv).ref = 0 ∧ (∀ p, (State.resetWith inv).buf.bit p = false) ∧ (State.resetWith inv).pos = 0 ∧
    (State.resetWith inv).par_run = false ∧ (State.resetWith inv).par_min = false ∧ (State.resetWith inv).par_hour = false ∧
    (State.resetWith inv).par_date = false ∧ (State.resetWith inv).dt = ⟨0, 0, 0, 0, 0, 0⟩ ∧ (State.resetWith inv).last_sync = 0 ∧
    (State.resetWith inv).inverted = inv

/-- Rule R210: the reset input, at any time, sets every register to its reset value and `INVERTED` to the supplied one; nothing else changes `INVERTED`. -/
def Obligations.OnlyResetChangesInverted : Prop :=
  ∀ s s' : State, step s = .next s' →
    (∀ inv rest, s.inputs = .reset inv :: rest → s'.inverted = inv ∧ s'.registers = (State.resetWith inv).registers) ∧
    ((∀ inv rest, s.inputs ≠ .reset inv :: rest) → s'.inverted = s.inverted)

/-- Rule R109, and the table of rule R36: TICK writes only the clock; no other operation writes `tick`, and hh:mm:ss only at a commit; `ref` is written by EDGE alone, the
parity flags not by FINALIZE; the reader writes no register. -/
def Obligations.ContextsWriteOnlyTheirRegisters : Prop :=
  ∀ (i : Instr) (s s' : State), exec i s = .next s' →
    (i = .tick → s' = { s with tick := s'.tick, ss := s'.ss, mm := s'.mm, hh := s'.hh }) ∧
    (i ≠ .tick → s'.tick = s.tick ∧ (¬ s.Commits i → s'.ss = s.ss ∧ s'.mm = s.mm ∧ s'.hh = s.hh)) ∧
    ((∀ t lvl, i ≠ .edge t lvl) → s'.ref = s.ref) ∧
    (∀ now, i = .finalize now → s'.par_run = s.par_run ∧ s'.par_min = s.par_min ∧ s'.par_hour = s.par_hour ∧ s'.par_date = s.par_date) ∧
    (isReaders i = true → s'.registers = s.registers)

/-- The state after reset meets the invariant of rule R38. -/
def Obligations.ResetMeetsTheInvariant : Prop :=
  ∀ inv : Bool, (State.resetWith inv).Inv

/-- Rule R38: every step from a state that meets the invariant leads to one that does. The bounds by `lastTime` express the premise (notes/assumptions/4.md). -/
def Obligations.EveryStepKeepsTheInvariant : Prop :=
  ∀ s s' : State, s.Inv → step s = .next s' → s'.Inv

/-! ## Ordering -/

/-- Rule R67: TICK may be swapped with any operation of the other agents that does not commit and does not read the clock while TICK moves it. -/
def Obligations.TickCommutesUnlessClockIsSharedAtOnce : Prop :=
  ∀ (i : Instr) (s : State), i ≠ .tick → ¬ s.Commits i →
    ((i = .readtime ∨ i = .gettime) → s.tick.toNat < 999) →
    execAll [.tick, i] s = execAll [i, .tick] s

/-- Rule R222: at the last tick of a second, TICK before a committing RISE leaves 00 seconds and TICK after it leaves 01, both at `tick` = 0. -/
def Obligations.TickAndCommittingRiseDoNotCommute : Prop :=
  ∀ (s : State) (t : Nat) (lvl : Bool), s.lastTime ≤ t → s.tick.toNat = 999 → s.Commits (.edge t lvl) →
    ∃ a b, execAll [.tick, .edge t lvl] s = .next a ∧ execAll [.edge t lvl, .tick] s = .next b ∧
      a.tick = 0 ∧ a.ss = 0 ∧ b = { a with ss := 1 }

/-- Rule R223: a commit leaves `tick` alone, so the first second after it lasts `1000 - tick` ticks. -/
def Obligations.FirstSecondAfterACommit : Prop :=
  ∀ (s : State) (now n : Nat), s.lastTime ≤ now → s.FrameReady → s.tick.toNat ≤ 999 →
    (∃ c, exec (.finalize now) s = .next c ∧ c.tick = s.tick ∧ c.ss = 0) ∧
    ∃ s', execAll (.finalize now :: List.replicate n .tick) s = .next s' ∧
      (n < 1000 - s.tick.toNat → s'.ss = 0) ∧ (n = 1000 - s.tick.toNat → s'.ss = 1 ∧ s'.tick = 0)
end

