-- ==== Sys2Proof/Laws/State.lean ====
section
/-! SUPPORT. One lemma per field of `State` for each shared update, so that no later proof unfolds a record update. -/

namespace Sys2Proof.Machine

/-! ### `State.storeBit`: step 1 of APPEND (rule R142) -/
@[simp] theorem State.storeBit_tick (b : Bool) (s : State) : (s.storeBit b).tick = s.tick := by
  unfold State.storeBit; split <;> rfl
@[simp] theorem State.storeBit_ss (b : Bool) (s : State) : (s.storeBit b).ss = s.ss := by
  unfold State.storeBit; split <;> rfl
@[simp] theorem State.storeBit_mm (b : Bool) (s : State) : (s.storeBit b).mm = s.mm := by
  unfold State.storeBit; split <;> rfl
@[simp] theorem State.storeBit_hh (b : Bool) (s : State) : (s.storeBit b).hh = s.hh := by
  unfold State.storeBit; split <;> rfl
@[simp] theorem State.storeBit_ref (b : Bool) (s : State) : (s.storeBit b).ref = s.ref := by
  unfold State.storeBit; split <;> rfl
@[simp] theorem State.storeBit_buf (b : Bool) (s : State) : (s.storeBit b).buf = if s.pos.toNat ≤ 58 then s.buf.write s.pos.toNat b else s.buf := by
  unfold State.storeBit; split <;> rfl
@[simp] theorem State.storeBit_pos (b : Bool) (s : State) : (s.storeBit b).pos = s.pos := by
  unfold State.storeBit; split <;> rfl
@[simp] theorem State.storeBit_par_run (b : Bool) (s : State) : (s.storeBit b).par_run = s.par_run := by
  unfold State.storeBit; split <;> rfl
@[simp] theorem State.storeBit_par_min (b : Bool) (s : State) : (s.storeBit b).par_min = s.par_min := by
  unfold State.storeBit; split <;> rfl
@[simp] theorem State.storeBit_par_hour (b : Bool) (s : State) : (s.storeBit b).par_hour = s.par_hour := by
  unfold State.storeBit; split <;> rfl
@[simp] theorem State.storeBit_par_date (b : Bool) (s : State) : (s.storeBit b).par_date = s.par_date := by
  unfold State.storeBit; split <;> rfl
@[simp] theorem State.storeBit_dt (b : Bool) (s : State) : (s.storeBit b).dt = s.dt := by
  unfold State.storeBit; split <;> rfl
@[simp] theorem State.storeBit_last_sync (b : Bool) (s : State) : (s.storeBit b).last_sync = s.last_sync := by
  unfold State.storeBit; split <;> rfl
@[simp] theorem State.storeBit_inverted (b : Bool) (s : State) : (s.storeBit b).inverted = s.inverted := by
  unfold State.storeBit; split <;> rfl
@[simp] theorem State.storeBit_indicator (b : Bool) (s : State) : (s.storeBit b).indicator = s.indicator := by
  unfold State.storeBit; split <;> rfl
@[simp] theorem State.storeBit_results (b : Bool) (s : State) : (s.storeBit b).results = s.results := by
  unfold State.storeBit; split <;> rfl
@[simp] theorem State.storeBit_lastTime (b : Bool) (s : State) : (s.storeBit b).lastTime = s.lastTime := by
  unfold State.storeBit; split <;> rfl
@[simp] theorem State.storeBit_inputs (b : Bool) (s : State) : (s.storeBit b).inputs = s.inputs := by
  unfold State.storeBit; split <;> rfl

/-! ### `State.advance`: step 5 of APPEND (rule R146) -/
@[simp] theorem State.advance_tick (s : State) : (s.advance).tick = s.tick := rfl
@[simp] theorem State.advance_ss (s : State) : (s.advance).ss = s.ss := rfl
@[simp] theorem State.advance_mm (s : State) : (s.advance).mm = s.mm := rfl
@[simp] theorem State.advance_hh (s : State) : (s.advance).hh = s.hh := rfl
@[simp] theorem State.advance_ref (s : State) : (s.advance).ref = s.ref := rfl
@[simp] theorem State.advance_buf (s : State) : (s.advance).buf = s.buf := rfl
@[simp] theorem State.advance_pos (s : State) : (s.advance).pos = BitVec.ofNat 6 (s.pos.toNat + 1) := rfl
@[simp] theorem State.advance_par_run (s : State) : (s.advance).par_run = s.par_run := rfl
@[simp] theorem State.advance_par_min (s : State) : (s.advance).par_min = s.par_min := rfl
@[simp] theorem State.advance_par_hour (s : State) : (s.advance).par_hour = s.par_hour := rfl
@[simp] theorem State.advance_par_date (s : State) : (s.advance).par_date = s.par_date := rfl
@[simp] theorem State.advance_dt (s : State) : (s.advance).dt = s.dt := rfl
@[simp] theorem State.advance_last_sync (s : State) : (s.advance).last_sync = s.last_sync := rfl
@[simp] theorem State.advance_inverted (s : State) : (s.advance).inverted = s.inverted := rfl
@[simp] theorem State.advance_indicator (s : State) : (s.advance).indicator = s.indicator := rfl
@[simp] theorem State.advance_results (s : State) : (s.advance).results = s.results := rfl
@[simp] theorem State.advance_lastTime (s : State) : (s.advance).lastTime = s.lastTime := rfl
@[simp] theorem State.advance_inputs (s : State) : (s.advance).inputs = s.inputs := rfl

/-! ### `State.rollback`: the rollback (rule R124) -/
@[simp] theorem State.rollback_tick (s : State) : (s.rollback).tick = s.tick := rfl
@[simp] theorem State.rollback_ss (s : State) : (s.rollback).ss = s.ss := rfl
@[simp] theorem State.rollback_mm (s : State) : (s.rollback).mm = s.mm := rfl
@[simp] theorem State.rollback_hh (s : State) : (s.rollback).hh = s.hh := rfl
@[simp] theorem State.rollback_ref (s : State) : (s.rollback).ref = s.ref := rfl
@[simp] theorem State.rollback_buf (s : State) : (s.rollback).buf = s.buf := rfl
@[simp] theorem State.rollback_pos (s : State) : (s.rollback).pos = BitVec.ofNat 6 (max s.pos.toNat 1 - 1) := rfl
@[simp] theorem State.rollback_par_run (s : State) : (s.rollback).par_run = s.par_run := rfl
@[simp] theorem State.rollback_par_min (s : State) : (s.rollback).par_min = s.par_min := rfl
@[simp] theorem State.rollback_par_hour (s : State) : (s.rollback).par_hour = s.par_hour := rfl
@[simp] theorem State.rollback_par_date (s : State) : (s.rollback).par_date = s.par_date := rfl
@[simp] theorem State.rollback_dt (s : State) : (s.rollback).dt = s.dt := rfl
@[simp] theorem State.rollback_last_sync (s : State) : (s.rollback).last_sync = s.last_sync := rfl
@[simp] theorem State.rollback_inverted (s : State) : (s.rollback).inverted = s.inverted := rfl
@[simp] theorem State.rollback_indicator (s : State) : (s.rollback).indicator = s.indicator := rfl
@[simp] theorem State.rollback_results (s : State) : (s.rollback).results = s.results := rfl
@[simp] theorem State.rollback_lastTime (s : State) : (s.rollback).lastTime = s.lastTime := rfl
@[simp] theorem State.rollback_inputs (s : State) : (s.rollback).inputs = s.inputs := rfl

/-! ### `State.clearBuffer`: the clear (rule R161) -/
@[simp] theorem State.clearBuffer_tick (s : State) : (s.clearBuffer).tick = s.tick := rfl
@[simp] theorem State.clearBuffer_ss (s : State) : (s.clearBuffer).ss = s.ss := rfl
@[simp] theorem State.clearBuffer_mm (s : State) : (s.clearBuffer).mm = s.mm := rfl
@[simp] theorem State.clearBuffer_hh (s : State) : (s.clearBuffer).hh = s.hh := rfl
@[simp] theorem State.clearBuffer_ref (s : State) : (s.clearBuffer).ref = s.ref := rfl
@[simp] theorem State.clearBuffer_buf (s : State) : (s.clearBuffer).buf = 0 := rfl
@[simp] theorem State.clearBuffer_pos (s : State) : (s.clearBuffer).pos = 0 := rfl
@[simp] theorem State.clearBuffer_par_run (s : State) : (s.clearBuffer).par_run = s.par_run := rfl
@[simp] theorem State.clearBuffer_par_min (s : State) : (s.clearBuffer).par_min = s.par_min := rfl
@[simp] theorem State.clearBuffer_par_hour (s : State) : (s.clearBuffer).par_hour = s.par_hour := rfl
@[simp] theorem State.clearBuffer_par_date (s : State) : (s.clearBuffer).par_date = s.par_date := rfl
@[simp] theorem State.clearBuffer_dt (s : State) : (s.clearBuffer).dt = s.dt := rfl
@[simp] theorem State.clearBuffer_last_sync (s : State) : (s.clearBuffer).last_sync = s.last_sync := rfl
@[simp] theorem State.clearBuffer_inverted (s : State) : (s.clearBuffer).inverted = s.inverted := rfl
@[simp] theorem State.clearBuffer_indicator (s : State) : (s.clearBuffer).indicator = s.indicator := rfl
@[simp] theorem State.clearBuffer_results (s : State) : (s.clearBuffer).results = s.results := rfl
@[simp] theorem State.clearBuffer_lastTime (s : State) : (s.clearBuffer).lastTime = s.lastTime := rfl
@[simp] theorem State.clearBuffer_inputs (s : State) : (s.clearBuffer).inputs = s.inputs := rfl

/-! ### `State.setRef`: `ref <- t` (rules R123, R125) -/
@[simp] theorem State.setRef_tick (t : Nat) (s : State) : (s.setRef t).tick = s.tick := rfl
@[simp] theorem State.setRef_ss (t : Nat) (s : State) : (s.setRef t).ss = s.ss := rfl
@[simp] theorem State.setRef_mm (t : Nat) (s : State) : (s.setRef t).mm = s.mm := rfl
@[simp] theorem State.setRef_hh (t : Nat) (s : State) : (s.setRef t).hh = s.hh := rfl
@[simp] theorem State.setRef_ref (t : Nat) (s : State) : (s.setRef t).ref = t := rfl
@[simp] theorem State.setRef_buf (t : Nat) (s : State) : (s.setRef t).buf = s.buf := rfl
@[simp] theorem State.setRef_pos (t : Nat) (s : State) : (s.setRef t).pos = s.pos := rfl
@[simp] theorem State.setRef_par_run (t : Nat) (s : State) : (s.setRef t).par_run = s.par_run := rfl
@[simp] theorem State.setRef_par_min (t : Nat) (s : State) : (s.setRef t).par_min = s.par_min := rfl
@[simp] theorem State.setRef_par_hour (t : Nat) (s : State) : (s.setRef t).par_hour = s.par_hour := rfl
@[simp] theorem State.setRef_par_date (t : Nat) (s : State) : (s.setRef t).par_date = s.par_date := rfl
@[simp] theorem State.setRef_dt (t : Nat) (s : State) : (s.setRef t).dt = s.dt := rfl
@[simp] theorem State.setRef_last_sync (t : Nat) (s : State) : (s.setRef t).last_sync = s.last_sync := rfl
@[simp] theorem State.setRef_inverted (t : Nat) (s : State) : (s.setRef t).inverted = s.inverted := rfl
@[simp] theorem State.setRef_indicator (t : Nat) (s : State) : (s.setRef t).indicator = s.indicator := rfl
@[simp] theorem State.setRef_results (t : Nat) (s : State) : (s.setRef t).results = s.results := rfl
@[simp] theorem State.setRef_lastTime (t : Nat) (s : State) : (s.setRef t).lastTime = s.lastTime := rfl
@[simp] theorem State.setRef_inputs (t : Nat) (s : State) : (s.setRef t).inputs = s.inputs := rfl

/-! ### `State.returnResult`: a result (rule R99) -/
@[simp] theorem State.returnResult_tick (r : Result) (s : State) : (s.returnResult r).tick = s.tick := rfl
@[simp] theorem State.returnResult_ss (r : Result) (s : State) : (s.returnResult r).ss = s.ss := rfl
@[simp] theorem State.returnResult_mm (r : Result) (s : State) : (s.returnResult r).mm = s.mm := rfl
@[simp] theorem State.returnResult_hh (r : Result) (s : State) : (s.returnResult r).hh = s.hh := rfl
@[simp] theorem State.returnResult_ref (r : Result) (s : State) : (s.returnResult r).ref = s.ref := rfl
@[simp] theorem State.returnResult_buf (r : Result) (s : State) : (s.returnResult r).buf = s.buf := rfl
@[simp] theorem State.returnResult_pos (r : Result) (s : State) : (s.returnResult r).pos = s.pos := rfl
@[simp] theorem State.returnResult_par_run (r : Result) (s : State) : (s.returnResult r).par_run = s.par_run := rfl
@[simp] theorem State.returnResult_par_min (r : Result) (s : State) : (s.returnResult r).par_min = s.par_min := rfl
@[simp] theorem State.returnResult_par_hour (r : Result) (s : State) : (s.returnResult r).par_hour = s.par_hour := rfl
@[simp] theorem State.returnResult_par_date (r : Result) (s : State) : (s.returnResult r).par_date = s.par_date := rfl
@[simp] theorem State.returnResult_dt (r : Result) (s : State) : (s.returnResult r).dt = s.dt := rfl
@[simp] theorem State.returnResult_last_sync (r : Result) (s : State) : (s.returnResult r).last_sync = s.last_sync := rfl
@[simp] theorem State.returnResult_inverted (r : Result) (s : State) : (s.returnResult r).inverted = s.inverted := rfl
@[simp] theorem State.returnResult_indicator (r : Result) (s : State) : (s.returnResult r).indicator = s.indicator := rfl
@[simp] theorem State.returnResult_results (r : Result) (s : State) : (s.returnResult r).results = s.results ++ [r] := rfl
@[simp] theorem State.returnResult_lastTime (r : Result) (s : State) : (s.returnResult r).lastTime = s.lastTime := rfl
@[simp] theorem State.returnResult_inputs (r : Result) (s : State) : (s.returnResult r).inputs = s.inputs := rfl

/-! ### `State.driveIndicator`: the indicator (rule R180) -/
@[simp] theorem State.driveIndicator_tick (lvl : Bool) (s : State) : (s.driveIndicator lvl).tick = s.tick := rfl
@[simp] theorem State.driveIndicator_ss (lvl : Bool) (s : State) : (s.driveIndicator lvl).ss = s.ss := rfl
@[simp] theorem State.driveIndicator_mm (lvl : Bool) (s : State) : (s.driveIndicator lvl).mm = s.mm := rfl
@[simp] theorem State.driveIndicator_hh (lvl : Bool) (s : State) : (s.driveIndicator lvl).hh = s.hh := rfl
@[simp] theorem State.driveIndicator_ref (lvl : Bool) (s : State) : (s.driveIndicator lvl).ref = s.ref := rfl
@[simp] theorem State.driveIndicator_buf (lvl : Bool) (s : State) : (s.driveIndicator lvl).buf = s.buf := rfl
@[simp] theorem State.driveIndicator_pos (lvl : Bool) (s : State) : (s.driveIndicator lvl).pos = s.pos := rfl
@[simp] theorem State.driveIndicator_par_run (lvl : Bool) (s : State) : (s.driveIndicator lvl).par_run = s.par_run := rfl
@[simp] theorem State.driveIndicator_par_min (lvl : Bool) (s : State) : (s.driveIndicator lvl).par_min = s.par_min := rfl
@[simp] theorem State.driveIndicator_par_hour (lvl : Bool) (s : State) : (s.driveIndicator lvl).par_hour = s.par_hour := rfl
@[simp] theorem State.driveIndicator_par_date (lvl : Bool) (s : State) : (s.driveIndicator lvl).par_date = s.par_date := rfl
@[simp] theorem State.driveIndicator_dt (lvl : Bool) (s : State) : (s.driveIndicator lvl).dt = s.dt := rfl
@[simp] theorem State.driveIndicator_last_sync (lvl : Bool) (s : State) : (s.driveIndicator lvl).last_sync = s.last_sync := rfl
@[simp] theorem State.driveIndicator_inverted (lvl : Bool) (s : State) : (s.driveIndicator lvl).inverted = s.inverted := rfl
@[simp] theorem State.driveIndicator_indicator (lvl : Bool) (s : State) : (s.driveIndicator lvl).indicator = some lvl := rfl
@[simp] theorem State.driveIndicator_results (lvl : Bool) (s : State) : (s.driveIndicator lvl).results = s.results := rfl
@[simp] theorem State.driveIndicator_lastTime (lvl : Bool) (s : State) : (s.driveIndicator lvl).lastTime = s.lastTime := rfl
@[simp] theorem State.driveIndicator_inputs (lvl : Bool) (s : State) : (s.driveIndicator lvl).inputs = s.inputs := rfl

/-! ### `State.stamp`: the premise (rule R16) -/
@[simp] theorem State.stamp_tick (t : Nat) (s : State) : (s.stamp t).tick = s.tick := rfl
@[simp] theorem State.stamp_ss (t : Nat) (s : State) : (s.stamp t).ss = s.ss := rfl
@[simp] theorem State.stamp_mm (t : Nat) (s : State) : (s.stamp t).mm = s.mm := rfl
@[simp] theorem State.stamp_hh (t : Nat) (s : State) : (s.stamp t).hh = s.hh := rfl
@[simp] theorem State.stamp_ref (t : Nat) (s : State) : (s.stamp t).ref = s.ref := rfl
@[simp] theorem State.stamp_buf (t : Nat) (s : State) : (s.stamp t).buf = s.buf := rfl
@[simp] theorem State.stamp_pos (t : Nat) (s : State) : (s.stamp t).pos = s.pos := rfl
@[simp] theorem State.stamp_par_run (t : Nat) (s : State) : (s.stamp t).par_run = s.par_run := rfl
@[simp] theorem State.stamp_par_min (t : Nat) (s : State) : (s.stamp t).par_min = s.par_min := rfl
@[simp] theorem State.stamp_par_hour (t : Nat) (s : State) : (s.stamp t).par_hour = s.par_hour := rfl
@[simp] theorem State.stamp_par_date (t : Nat) (s : State) : (s.stamp t).par_date = s.par_date := rfl
@[simp] theorem State.stamp_dt (t : Nat) (s : State) : (s.stamp t).dt = s.dt := rfl
@[simp] theorem State.stamp_last_sync (t : Nat) (s : State) : (s.stamp t).last_sync = s.last_sync := rfl
@[simp] theorem State.stamp_inverted (t : Nat) (s : State) : (s.stamp t).inverted = s.inverted := rfl
@[simp] theorem State.stamp_indicator (t : Nat) (s : State) : (s.stamp t).indicator = s.indicator := rfl
@[simp] theorem State.stamp_results (t : Nat) (s : State) : (s.stamp t).results = s.results := rfl
@[simp] theorem State.stamp_lastTime (t : Nat) (s : State) : (s.stamp t).lastTime = t := rfl
@[simp] theorem State.stamp_inputs (t : Nat) (s : State) : (s.stamp t).inputs = s.inputs := rfl

/-! ### `State.consume`: the input port -/
@[simp] theorem State.consume_tick (rest : List Input) (s : State) : (s.consume rest).tick = s.tick := rfl
@[simp] theorem State.consume_ss (rest : List Input) (s : State) : (s.consume rest).ss = s.ss := rfl
@[simp] theorem State.consume_mm (rest : List Input) (s : State) : (s.consume rest).mm = s.mm := rfl
@[simp] theorem State.consume_hh (rest : List Input) (s : State) : (s.consume rest).hh = s.hh := rfl
@[simp] theorem State.consume_ref (rest : List Input) (s : State) : (s.consume rest).ref = s.ref := rfl
@[simp] theorem State.consume_buf (rest : List Input) (s : State) : (s.consume rest).buf = s.buf := rfl
@[simp] theorem State.consume_pos (rest : List Input) (s : State) : (s.consume rest).pos = s.pos := rfl
@[simp] theorem State.consume_par_run (rest : List Input) (s : State) : (s.consume rest).par_run = s.par_run := rfl
@[simp] theorem State.consume_par_min (rest : List Input) (s : State) : (s.consume rest).par_min = s.par_min := rfl
@[simp] theorem State.consume_par_hour (rest : List Input) (s : State) : (s.consume rest).par_hour = s.par_hour := rfl
@[simp] theorem State.consume_par_date (rest : List Input) (s : State) : (s.consume rest).par_date = s.par_date := rfl
@[simp] theorem State.consume_dt (rest : List Input) (s : State) : (s.consume rest).dt = s.dt := rfl
@[simp] theorem State.consume_last_sync (rest : List Input) (s : State) : (s.consume rest).last_sync = s.last_sync := rfl
@[simp] theorem State.consume_inverted (rest : List Input) (s : State) : (s.consume rest).inverted = s.inverted := rfl
@[simp] theorem State.consume_indicator (rest : List Input) (s : State) : (s.consume rest).indicator = s.indicator := rfl
@[simp] theorem State.consume_results (rest : List Input) (s : State) : (s.consume rest).results = s.results := rfl
@[simp] theorem State.consume_lastTime (rest : List Input) (s : State) : (s.consume rest).lastTime = s.lastTime := rfl
@[simp] theorem State.consume_inputs (rest : List Input) (s : State) : (s.consume rest).inputs = rest := rfl

/-! ### `State.offerWord`: the input port -/
@[simp] theorem State.offerWord_tick (n : Nat) (s : State) : (s.offerWord n).tick = s.tick := rfl
@[simp] theorem State.offerWord_ss (n : Nat) (s : State) : (s.offerWord n).ss = s.ss := rfl
@[simp] theorem State.offerWord_mm (n : Nat) (s : State) : (s.offerWord n).mm = s.mm := rfl
@[simp] theorem State.offerWord_hh (n : Nat) (s : State) : (s.offerWord n).hh = s.hh := rfl
@[simp] theorem State.offerWord_ref (n : Nat) (s : State) : (s.offerWord n).ref = s.ref := rfl
@[simp] theorem State.offerWord_buf (n : Nat) (s : State) : (s.offerWord n).buf = s.buf := rfl
@[simp] theorem State.offerWord_pos (n : Nat) (s : State) : (s.offerWord n).pos = s.pos := rfl
@[simp] theorem State.offerWord_par_run (n : Nat) (s : State) : (s.offerWord n).par_run = s.par_run := rfl
@[simp] theorem State.offerWord_par_min (n : Nat) (s : State) : (s.offerWord n).par_min = s.par_min := rfl
@[simp] theorem State.offerWord_par_hour (n : Nat) (s : State) : (s.offerWord n).par_hour = s.par_hour := rfl
@[simp] theorem State.offerWord_par_date (n : Nat) (s : State) : (s.offerWord n).par_date = s.par_date := rfl
@[simp] theorem State.offerWord_dt (n : Nat) (s : State) : (s.offerWord n).dt = s.dt := rfl
@[simp] theorem State.offerWord_last_sync (n : Nat) (s : State) : (s.offerWord n).last_sync = s.last_sync := rfl
@[simp] theorem State.offerWord_inverted (n : Nat) (s : State) : (s.offerWord n).inverted = s.inverted := rfl
@[simp] theorem State.offerWord_indicator (n : Nat) (s : State) : (s.offerWord n).indicator = s.indicator := rfl
@[simp] theorem State.offerWord_results (n : Nat) (s : State) : (s.offerWord n).results = s.results := rfl
@[simp] theorem State.offerWord_lastTime (n : Nat) (s : State) : (s.offerWord n).lastTime = s.lastTime := rfl
@[simp] theorem State.offerWord_inputs (n : Nat) (s : State) : (s.offerWord n).inputs = .word (BitVec.ofNat 36 n) :: s.inputs := rfl

/-! ### `State.parityReset`: step 2 of APPEND (rule R143) -/
@[simp] theorem State.parityReset_tick (s : State) : (s.parityReset).tick = s.tick := by
  unfold State.parityReset; split <;> rfl
@[simp] theorem State.parityReset_ss (s : State) : (s.parityReset).ss = s.ss := by
  unfold State.parityReset; split <;> rfl
@[simp] theorem State.parityReset_mm (s : State) : (s.parityReset).mm = s.mm := by
  unfold State.parityReset; split <;> rfl
@[simp] theorem State.parityReset_hh (s : State) : (s.parityReset).hh = s.hh := by
  unfold State.parityReset; split <;> rfl
@[simp] theorem State.parityReset_ref (s : State) : (s.parityReset).ref = s.ref := by
  unfold State.parityReset; split <;> rfl
@[simp] theorem State.parityReset_buf (s : State) : (s.parityReset).buf = s.buf := by
  unfold State.parityReset; split <;> rfl
@[simp] theorem State.parityReset_pos (s : State) : (s.parityReset).pos = s.pos := by
  unfold State.parityReset; split <;> rfl
@[simp] theorem State.parityReset_par_run (s : State) : (s.parityReset).par_run = if s.pos.toNat = 21 ∨ s.pos.toNat = 29 ∨ s.pos.toNat = 36 then false else s.par_run := by
  unfold State.parityReset; split <;> rfl
@[simp] theorem State.parityReset_par_min (s : State) : (s.parityReset).par_min = s.par_min := by
  unfold State.parityReset; split <;> rfl
@[simp] theorem State.parityReset_par_hour (s : State) : (s.parityReset).par_hour = s.par_hour := by
  unfold State.parityReset; split <;> rfl
@[simp] theorem State.parityReset_par_date (s : State) : (s.parityReset).par_date = s.par_date := by
  unfold State.parityReset; split <;> rfl
@[simp] theorem State.parityReset_dt (s : State) : (s.parityReset).dt = s.dt := by
  unfold State.parityReset; split <;> rfl
@[simp] theorem State.parityReset_last_sync (s : State) : (s.parityReset).last_sync = s.last_sync := by
  unfold State.parityReset; split <;> rfl
@[simp] theorem State.parityReset_inverted (s : State) : (s.parityReset).inverted = s.inverted := by
  unfold State.parityReset; split <;> rfl
@[simp] theorem State.parityReset_indicator (s : State) : (s.parityReset).indicator = s.indicator := by
  unfold State.parityReset; split <;> rfl
@[simp] theorem State.parityReset_results (s : State) : (s.parityReset).results = s.results := by
  unfold State.parityReset; split <;> rfl
@[simp] theorem State.parityReset_lastTime (s : State) : (s.parityReset).lastTime = s.lastTime := by
  unfold State.parityReset; split <;> rfl
@[simp] theorem State.parityReset_inputs (s : State) : (s.parityReset).inputs = s.inputs := by
  unfold State.parityReset; split <;> rfl

/-! ### `State.parityLatch`: step 3 of APPEND (rule R144) -/
@[simp] theorem State.parityLatch_tick (s : State) : (s.parityLatch).tick = s.tick := rfl
@[simp] theorem State.parityLatch_ss (s : State) : (s.parityLatch).ss = s.ss := rfl
@[simp] theorem State.parityLatch_mm (s : State) : (s.parityLatch).mm = s.mm := rfl
@[simp] theorem State.parityLatch_hh (s : State) : (s.parityLatch).hh = s.hh := rfl
@[simp] theorem State.parityLatch_ref (s : State) : (s.parityLatch).ref = s.ref := rfl
@[simp] theorem State.parityLatch_buf (s : State) : (s.parityLatch).buf = s.buf := rfl
@[simp] theorem State.parityLatch_pos (s : State) : (s.parityLatch).pos = s.pos := rfl
@[simp] theorem State.parityLatch_par_run (s : State) : (s.parityLatch).par_run = s.par_run := rfl
@[simp] theorem State.parityLatch_par_min (s : State) : (s.parityLatch).par_min = if s.pos.toNat = 28 then s.par_run else s.par_min := rfl
@[simp] theorem State.parityLatch_par_hour (s : State) : (s.parityLatch).par_hour = if s.pos.toNat = 35 then s.par_run else s.par_hour := rfl
@[simp] theorem State.parityLatch_par_date (s : State) : (s.parityLatch).par_date = if s.pos.toNat = 58 then s.par_run else s.par_date := rfl
@[simp] theorem State.parityLatch_dt (s : State) : (s.parityLatch).dt = s.dt := rfl
@[simp] theorem State.parityLatch_last_sync (s : State) : (s.parityLatch).last_sync = s.last_sync := rfl
@[simp] theorem State.parityLatch_inverted (s : State) : (s.parityLatch).inverted = s.inverted := rfl
@[simp] theorem State.parityLatch_indicator (s : State) : (s.parityLatch).indicator = s.indicator := rfl
@[simp] theorem State.parityLatch_results (s : State) : (s.parityLatch).results = s.results := rfl
@[simp] theorem State.parityLatch_lastTime (s : State) : (s.parityLatch).lastTime = s.lastTime := rfl
@[simp] theorem State.parityLatch_inputs (s : State) : (s.parityLatch).inputs = s.inputs := rfl

/-! ### `State.parityAccumulate`: step 4 of APPEND (rule R145) -/
@[simp] theorem State.parityAccumulate_tick (b : Bool) (s : State) : (s.parityAccumulate b).tick = s.tick := by
  cases b <;> simp [State.parityAccumulate]
@[simp] theorem State.parityAccumulate_ss (b : Bool) (s : State) : (s.parityAccumulate b).ss = s.ss := by
  cases b <;> simp [State.parityAccumulate]
@[simp] theorem State.parityAccumulate_mm (b : Bool) (s : State) : (s.parityAccumulate b).mm = s.mm := by
  cases b <;> simp [State.parityAccumulate]
@[simp] theorem State.parityAccumulate_hh (b : Bool) (s : State) : (s.parityAccumulate b).hh = s.hh := by
  cases b <;> simp [State.parityAccumulate]
@[simp] theorem State.parityAccumulate_ref (b : Bool) (s : State) : (s.parityAccumulate b).ref = s.ref := by
  cases b <;> simp [State.parityAccumulate]
@[simp] theorem State.parityAccumulate_buf (b : Bool) (s : State) : (s.parityAccumulate b).buf = s.buf := by
  cases b <;> simp [State.parityAccumulate]
@[simp] theorem State.parityAccumulate_pos (b : Bool) (s : State) : (s.parityAccumulate b).pos = s.pos := by
  cases b <;> simp [State.parityAccumulate]
@[simp] theorem State.parityAccumulate_par_run (b : Bool) (s : State) : (s.parityAccumulate b).par_run = (s.par_run ^^ b) := by
  cases b <;> simp [State.parityAccumulate]
@[simp] theorem State.parityAccumulate_par_min (b : Bool) (s : State) : (s.parityAccumulate b).par_min = s.par_min := by
  cases b <;> simp [State.parityAccumulate]
@[simp] theorem State.parityAccumulate_par_hour (b : Bool) (s : State) : (s.parityAccumulate b).par_hour = s.par_hour := by
  cases b <;> simp [State.parityAccumulate]
@[simp] theorem State.parityAccumulate_par_date (b : Bool) (s : State) : (s.parityAccumulate b).par_date = s.par_date := by
  cases b <;> simp [State.parityAccumulate]
@[simp] theorem State.parityAccumulate_dt (b : Bool) (s : State) : (s.parityAccumulate b).dt = s.dt := by
  cases b <;> simp [State.parityAccumulate]
@[simp] theorem State.parityAccumulate_last_sync (b : Bool) (s : State) : (s.parityAccumulate b).last_sync = s.last_sync := by
  cases b <;> simp [State.parityAccumulate]
@[simp] theorem State.parityAccumulate_inverted (b : Bool) (s : State) : (s.parityAccumulate b).inverted = s.inverted := by
  cases b <;> simp [State.parityAccumulate]
@[simp] theorem State.parityAccumulate_indicator (b : Bool) (s : State) : (s.parityAccumulate b).indicator = s.indicator := by
  cases b <;> simp [State.parityAccumulate]
@[simp] theorem State.parityAccumulate_results (b : Bool) (s : State) : (s.parityAccumulate b).results = s.results := by
  cases b <;> simp [State.parityAccumulate]
@[simp] theorem State.parityAccumulate_lastTime (b : Bool) (s : State) : (s.parityAccumulate b).lastTime = s.lastTime := by
  cases b <;> simp [State.parityAccumulate]
@[simp] theorem State.parityAccumulate_inputs (b : Bool) (s : State) : (s.parityAccumulate b).inputs = s.inputs := by
  cases b <;> simp [State.parityAccumulate]

/-! ### `State.commit`: the commit (rule R160) -/
@[simp] theorem State.commit_tick (now : Nat) (s : State) : (s.commit now).tick = s.tick := rfl
@[simp] theorem State.commit_ss (now : Nat) (s : State) : (s.commit now).ss = 0 := rfl
@[simp] theorem State.commit_mm (now : Nat) (s : State) : (s.commit now).mm = (decodedTime s.buf).minute := rfl
@[simp] theorem State.commit_hh (now : Nat) (s : State) : (s.commit now).hh = (decodedTime s.buf).hour := rfl
@[simp] theorem State.commit_ref (now : Nat) (s : State) : (s.commit now).ref = s.ref := rfl
@[simp] theorem State.commit_buf (now : Nat) (s : State) : (s.commit now).buf = s.buf := rfl
@[simp] theorem State.commit_pos (now : Nat) (s : State) : (s.commit now).pos = s.pos := rfl
@[simp] theorem State.commit_par_run (now : Nat) (s : State) : (s.commit now).par_run = s.par_run := rfl
@[simp] theorem State.commit_par_min (now : Nat) (s : State) : (s.commit now).par_min = s.par_min := rfl
@[simp] theorem State.commit_par_hour (now : Nat) (s : State) : (s.commit now).par_hour = s.par_hour := rfl
@[simp] theorem State.commit_par_date (now : Nat) (s : State) : (s.commit now).par_date = s.par_date := rfl
@[simp] theorem State.commit_dt (now : Nat) (s : State) : (s.commit now).dt = decodedTime s.buf := rfl
@[simp] theorem State.commit_last_sync (now : Nat) (s : State) : (s.commit now).last_sync = now := rfl
@[simp] theorem State.commit_inverted (now : Nat) (s : State) : (s.commit now).inverted = s.inverted := rfl
@[simp] theorem State.commit_indicator (now : Nat) (s : State) : (s.commit now).indicator = s.indicator := rfl
@[simp] theorem State.commit_results (now : Nat) (s : State) : (s.commit now).results = s.results := rfl
@[simp] theorem State.commit_lastTime (now : Nat) (s : State) : (s.commit now).lastTime = s.lastTime := rfl
@[simp] theorem State.commit_inputs (now : Nat) (s : State) : (s.commit now).inputs = s.inputs := rfl

end Sys2Proof.Machine
end

