-- ==== Sys2Proof/Laws/Clock.lean ====
section
/-! SUPPORT. What TICK can do, said once: the five cases of its carry chain (spec/40_seconds_clock.md rule R106). -/

namespace Sys2Proof.Machine

/-- The five outcomes of TICK, by how far the carry runs. -/
theorem State.advanceTick_cases (s : State) :
    (s.tick.toNat + 1 < 1000 ∧ s.advanceTick = { s with tick := BitVec.ofNat 10 (s.tick.toNat + 1) }) ∨
    (1000 ≤ s.tick.toNat + 1 ∧ s.ss.toNat + 1 < 60 ∧
      s.advanceTick = { s with tick := 0, ss := BitVec.ofNat 6 (s.ss.toNat + 1) }) ∨
    (1000 ≤ s.tick.toNat + 1 ∧ 60 ≤ s.ss.toNat + 1 ∧ s.mm.toNat + 1 < 60 ∧
      s.advanceTick = { s with tick := 0, ss := 0, mm := BitVec.ofNat 7 (s.mm.toNat + 1) }) ∨
    (1000 ≤ s.tick.toNat + 1 ∧ 60 ≤ s.ss.toNat + 1 ∧ 60 ≤ s.mm.toNat + 1 ∧ s.hh.toNat + 1 < 24 ∧
      s.advanceTick = { s with tick := 0, ss := 0, mm := 0, hh := BitVec.ofNat 6 (s.hh.toNat + 1) }) ∨
    (1000 ≤ s.tick.toNat + 1 ∧ 60 ≤ s.ss.toNat + 1 ∧ 60 ≤ s.mm.toNat + 1 ∧ 24 ≤ s.hh.toNat + 1 ∧
      s.advanceTick = { s with tick := 0, ss := 0, mm := 0, hh := 0 }) := by
  by_cases h1 : s.tick.toNat + 1 < 1000
  · exact .inl ⟨h1, by simp [State.advanceTick, h1]⟩
  by_cases h2 : s.ss.toNat + 1 < 60
  · exact .inr (.inl ⟨by omega, h2, by simp [State.advanceTick, State.carrySecond, h1, h2]⟩)
  by_cases h3 : s.mm.toNat + 1 < 60
  · exact .inr (.inr (.inl ⟨by omega, by omega, h3, by
      simp [State.advanceTick, State.carrySecond, State.carryMinute, h1, h2, h3]⟩))
  by_cases h4 : s.hh.toNat + 1 < 24
  · exact .inr (.inr (.inr (.inl ⟨by omega, by omega, by omega, h4, by
      simp [State.advanceTick, State.carrySecond, State.carryMinute, State.carryHour, h1, h2, h3, h4]⟩)))
  · exact .inr (.inr (.inr (.inr ⟨by omega, by omega, by omega, by omega, by
      simp [State.advanceTick, State.carrySecond, State.carryMinute, State.carryHour, h1, h2, h3, h4]⟩)))

/-- TICK touches no register outside the Seconds Clock (rule R109). -/
theorem State.advanceTick_frame (s : State) :
    s.advanceTick = { s with
      tick := s.advanceTick.tick, ss := s.advanceTick.ss, mm := s.advanceTick.mm, hh := s.advanceTick.hh } := by
  rcases s.advanceTick_cases with ⟨_, h⟩ | ⟨_, _, h⟩ | ⟨_, _, _, h⟩ | ⟨_, _, _, _, h⟩ | ⟨_, _, _, _, h⟩ <;> rw [h]

end Sys2Proof.Machine
end

