-- ==== Sys2Proof/Laws/Decode.lean ====
section
/-! SUPPORT. The bits of an event word laid out from its fields (spec/30_encoding.md rule R94). -/

namespace Sys2Proof

/-- Bit `k` of an event word: `ts` below 32, `lvl` at 32, `op` from 33 on. -/
theorem eventWord_getLsbD (op : BitVec 3) (lvl : Bool) (ts : BitVec 32) (k : Nat) :
    (eventWord op lvl ts).getLsbD k =
      if k < 32 then ts.getLsbD k else if k = 32 then lvl else op.getLsbD (k - 33) := by
  unfold eventWord
  rw [BitVec.getLsbD_append, BitVec.getLsbD_append]
  by_cases h1 : k < 32
  · have h2 : k < 1 + 32 := by omega
    simp only [h1, h2, if_true]
  · by_cases h2 : k = 32
    · subst h2; simp
    · have h3 : ¬ k < 1 + 32 := by omega
      have h4 : k - (1 + 32) = k - 33 := by omega
      simp only [h1, h2, h3, h4, if_false]

@[simp] theorem eventWord_lvl (op : BitVec 3) (lvl : Bool) (ts : BitVec 32) : (eventWord op lvl ts).lvl = lvl :=
  (eventWord_getLsbD op lvl ts 32).trans (by simp)

@[simp] theorem eventWord_ts (op : BitVec 3) (lvl : Bool) (ts : BitVec 32) : (eventWord op lvl ts).ts = ts := by
  apply BitVec.eq_of_getLsbD_eq
  intro k hk
  simp [EventWord.ts, eventWord_getLsbD, hk]

end Sys2Proof
end

