-- ==== Sys2Proof/Laws/Memory.lean ====
section
/-! SUPPORT. The laws of the frame memory: reading a cell after a write, the clear, the bounds of a field read, and the parity of a slice. -/

namespace Sys2Proof.Machine

/-! ## The canonical form -/

/-- Every memory has the canonical form, whatever operation produced it. -/
@[simp] theorem Memory.wf_all (m : Memory) : m.wf = true := by
  simp only [Memory.wf, decide_eq_true_eq]; exact m.isLt

theorem Memory.wf_write (m : Memory) (p : Nat) (b : Bool) : (m.write p b).wf = true := Memory.wf_all _

theorem Memory.wf_clear (s : State) : s.clearBuffer.buf.wf = true := Memory.wf_all _

theorem Memory.wf_reset : State.reset.buf.wf = true := Memory.wf_all _

/-! ## Cells -/

theorem Memory.bit_of_ge (m : Memory) {p : Nat} (h : 59 ≤ p) : m.bit p = false := by
  simp [Memory.bit, BitVec.getLsbD_of_ge _ _ h]

@[simp] theorem Memory.bit_zero (p : Nat) : Memory.bit 0#59 p = false := by
  simp [Memory.bit]

/-- A write overwrites its own cell and leaves every other cell alone (rule R61). -/
theorem Memory.bit_write (m : Memory) (p q : Nat) (b : Bool) (h : p ≤ 58) :
    (m.write p b).bit q = if q = p then b else m.bit q := by
  unfold Memory.write Memory.bit
  rw [if_pos h]
  by_cases hq : q < 59
  · rcases Nat.lt_trichotomy q p with hlt | rfl | hgt
    · have hne : q ≠ p := by omega
      simp [hq, hlt, hne]
    · cases b <;> simp [hq]
    · have hne : q ≠ p := by omega
      have h1 : ¬ q < p := by omega
      have h2 : q - p ≠ 0 := by omega
      have h3 : 1 ≤ q - p := by omega
      cases b <;> simp [hq, hne, h1, h2]
  · have hne : q ≠ p := by omega
    rw [BitVec.getLsbD_of_ge _ _ (by omega), if_neg hne, BitVec.getLsbD_of_ge _ _ (by omega)]

/-- There is no cell at 59 or above: the write is dropped (rule R58). -/
theorem Memory.write_of_ge (m : Memory) (b : Bool) {p : Nat} (h : 59 ≤ p) : m.write p b = m := by
  unfold Memory.write
  rw [if_neg (by omega)]

/-- Two memories with the same 59 cells are the same memory. -/
theorem Memory.ext_bit {m n : Memory} (h : ∀ p, p < 59 → m.bit p = n.bit p) : m = n :=
  BitVec.eq_of_getLsbD_eq h

theorem Memory.bit_flip (m : Memory) {k : Nat} (hk : k < 59) (p : Nat) :
    (m.flip k).bit p = (m.bit p ^^ decide (p = k)) := by
  unfold Memory.flip Memory.bit
  by_cases hp : p < 59
  · rcases Nat.lt_trichotomy p k with hlt | rfl | hgt
    · have hne : p ≠ k := by omega
      simp [hp, hlt, hne]
    · simp [hp]
    · have hne : p ≠ k := by omega
      have h1 : ¬ p < k := by omega
      have h2 : p - k ≠ 0 := by omega
      simp [hp, hne, h1, h2]
  · have hne : p ≠ k := by omega
    rw [BitVec.getLsbD_of_ge _ _ (by omega), BitVec.getLsbD_of_ge _ _ (by omega)]
    simp [hne]

/-! ## Fields -/

theorem Memory.read_lt (m : Memory) (o w : Nat) : m.read o w < 2 ^ w :=
  Nat.mod_lt _ (by positivity)

@[simp] theorem Memory.parity_nil (m : Memory) (o : Nat) : m.parity o 0 = false := rfl

theorem Memory.parity_succ (m : Memory) (o w : Nat) :
    m.parity o (w + 1) = (m.parity o w ^^ m.bit (o + w)) := rfl

/-- The parity of a slice depends on its cells only. -/
theorem Memory.parity_congr {m n : Memory} {o w : Nat} (h : ∀ k, k < w → m.bit (o + k) = n.bit (o + k)) :
    m.parity o w = n.parity o w := by
  induction w with
  | zero => rfl
  | succ w ih =>
    rw [Memory.parity_succ, Memory.parity_succ, ih fun k hk => h k (by omega), h w (by omega)]

/-- A write outside a slice leaves the slice's parity alone. -/
theorem Memory.parity_write_of_out (m : Memory) (o w p : Nat) (b : Bool) (hp : p ≤ 58) (h : p < o ∨ o + w ≤ p) :
    (m.write p b).parity o w = m.parity o w :=
  Memory.parity_congr fun k hk => by
    rw [Memory.bit_write _ _ _ _ hp, if_neg (by omega)]

/-- Writing the cell just behind a slice extends the slice's parity by the bit written. -/
theorem Memory.parity_write_next (m : Memory) (o w : Nat) (b : Bool) (h : o + w ≤ 58) :
    (m.write (o + w) b).parity o (w + 1) = (m.parity o w ^^ b) := by
  rw [Memory.parity_succ, Memory.parity_write_of_out _ _ _ _ _ h (.inr le_rfl), Memory.bit_write _ _ _ _ h, if_pos rfl]

/-- Inverting a cell inside a slice inverts the slice's parity; outside it changes nothing. -/
theorem Memory.parity_flip (m : Memory) {k : Nat} (hk : k < 59) (o w : Nat) :
    (m.flip k).parity o w = (m.parity o w ^^ decide (o ≤ k ∧ k < o + w)) := by
  induction w with
  | zero => simp
  | succ w ih =>
    rw [Memory.parity_succ, Memory.parity_succ, ih, Memory.bit_flip _ hk]
    by_cases h1 : o ≤ k ∧ k < o + w
    · have h2 : o ≤ k ∧ k < o + (w + 1) := by omega
      have h3 : ¬ o + w = k := by omega
      simp [h1, h2, h3]
    · by_cases h3 : o + w = k
      · have h2 : o ≤ k ∧ k < o + (w + 1) := by omega
        simp [h2, h3]
      · have h2 : ¬ (o ≤ k ∧ k < o + (w + 1)) := by omega
        simp [h1, h2, h3]

end Sys2Proof.Machine
end

