-- ==== Sys2Proof/Laws/Operands.lean ====
section
/-! SUPPORT. The values of the BCD conversion and of the operand assembly, and that none overflows its register. -/

namespace Sys2Proof.Machine

@[simp] theorem pulseBit_eq (w : Nat) : pulseBit w = decide (140 ≤ w) := by
  unfold pulseBit Config.splitMs
  by_cases h : w < 140
  · rw [if_pos h]; simp; omega
  · rw [if_neg h]; simp; omega

/-- The conversion never yields more than its operand, since it only takes away (spec/00_scope.md rule R14). -/
theorem bcd2bin_le (v : Nat) : bcd2bin v ≤ v := Nat.sub_le _ _

theorem bcd2bin_eq_tens_ones (v : Nat) : bcd2bin v = 10 * (v / 16) + v % 16 := by
  unfold bcd2bin; omega

/-- The largest value a field converts to, by its width: 85, 45, 25 and 165 for 7, 6, 5 and 8 bits (rule R153). -/
theorem bcd2bin_le_of_lt_two_pow {v : Nat} :
    (v < 2 ^ 7 → bcd2bin v ≤ 85) ∧ (v < 2 ^ 6 → bcd2bin v ≤ 45) ∧ (v < 2 ^ 5 → bcd2bin v ≤ 25) ∧
    (v < 2 ^ 8 → bcd2bin v ≤ 165) := by
  rw [bcd2bin_eq_tens_ones]; omega

theorem decodedTime_minute (m : Memory) : (decodedTime m).minute.toNat = bcd2bin (m.read 21 7) := by
  have := bcd2bin_le (m.read 21 7); have := m.read_lt 21 7
  simp only [decodedTime, BitVec.toNat_ofNat]; omega

theorem decodedTime_hour (m : Memory) : (decodedTime m).hour.toNat = bcd2bin (m.read 29 6) := by
  have := bcd2bin_le (m.read 29 6); have := m.read_lt 29 6
  simp only [decodedTime, BitVec.toNat_ofNat]; omega

theorem decodedTime_day (m : Memory) : (decodedTime m).day.toNat = bcd2bin (m.read 36 6) := by
  have := bcd2bin_le (m.read 36 6); have := m.read_lt 36 6
  simp only [decodedTime, BitVec.toNat_ofNat]; omega

theorem decodedTime_month (m : Memory) : (decodedTime m).month.toNat = bcd2bin (m.read 45 5) := by
  have := bcd2bin_le (m.read 45 5); have := m.read_lt 45 5
  simp only [decodedTime, BitVec.toNat_ofNat]; omega

theorem decodedTime_year (m : Memory) : (decodedTime m).year.toNat = 2000 + bcd2bin (m.read 50 8) := by
  have := bcd2bin_le (m.read 50 8); have := m.read_lt 50 8
  simp only [decodedTime, BitVec.toNat_ofNat, Config.yearBase]; omega

@[simp] theorem decodedTime_second (m : Memory) : (decodedTime m).second = 0 := rfl

end Sys2Proof.Machine
end

