-- ==== Sys2Proof/Laws/FrameDecoder.lean ====
section
/-! SUPPORT. What FINALIZE and APPEND can do, said once each. -/

namespace Sys2Proof.Machine

theorem State.frameAccepted_iff (s : State) : s.frameAccepted = true ↔ s.FrameReady := by
  simp [State.frameAccepted, State.paritiesMatch, State.FrameReady, and_assoc]

/-- FINALIZE on an acceptable frame: the commit, then the clear (rules R149, R160, R161). -/
theorem State.finalizeFrame_of_ready {s : State} (h : s.FrameReady) (now : Nat) :
    s.finalizeFrame now = (s.commit now).clearBuffer := by
  simp only [State.finalizeFrame, (State.frameAccepted_iff s).2 h, if_true]

/-- FINALIZE on any other frame: only the clear (rules R150, R151, R161). -/
theorem State.finalizeFrame_of_not_ready {s : State} (h : ¬ s.FrameReady) (now : Nat) :
    s.finalizeFrame now = s.clearBuffer := by
  have : s.frameAccepted = false := by
    rw [Bool.eq_false_iff]; exact fun hc => h ((State.frameAccepted_iff s).1 hc)
  simp only [State.finalizeFrame, this]; rfl

/-- FINALIZE does one of two things. -/
theorem State.finalizeFrame_cases (s : State) (now : Nat) :
    (s.FrameReady ∧ s.finalizeFrame now = (s.commit now).clearBuffer) ∨
    (¬ s.FrameReady ∧ s.finalizeFrame now = s.clearBuffer) := by
  by_cases h : s.FrameReady
  · exact .inl ⟨h, State.finalizeFrame_of_ready h now⟩
  · exact .inr ⟨h, State.finalizeFrame_of_not_ready h now⟩

/-- APPEND below position 59, all it does (rules R142 to R146): the cell is overwritten, the position advances, the running parity is reset
at 21, 29 and 36 and then takes the bit in, and at 28, 35 and 58 its value before the bit is saved. -/
theorem State.appendBit_of_le (s : State) (b : Bool) (now : Nat) (h : s.pos.toNat ≤ 58) :
    s.appendBit b now =
      { s with
        buf := s.buf.write s.pos.toNat b
        pos := BitVec.ofNat 6 (s.pos.toNat + 1)
        par_run := ((if s.pos.toNat = 21 ∨ s.pos.toNat = 29 ∨ s.pos.toNat = 36 then false else s.par_run) ^^ b)
        par_min := if s.pos.toNat = 28 then s.par_run else s.par_min
        par_hour := if s.pos.toNat = 35 then s.par_run else s.par_hour
        par_date := if s.pos.toNat = 58 then s.par_run else s.par_date } := by
  have h59 : ¬ s.pos.toNat + 1 > Config.frameBits := by simp; omega
  have h28 : s.pos.toNat = 28 → ¬ (s.pos.toNat = 21 ∨ s.pos.toNat = 29 ∨ s.pos.toNat = 36) := by omega
  have h35 : s.pos.toNat = 35 → ¬ (s.pos.toNat = 21 ∨ s.pos.toNat = 29 ∨ s.pos.toNat = 36) := by omega
  have h58 : s.pos.toNat = 58 → ¬ (s.pos.toNat = 21 ∨ s.pos.toNat = 29 ∨ s.pos.toNat = 36) := by omega
  simp only [State.appendBit, h59, if_false]
  apply State.ext <;> simp [h]
  · by_cases e : s.pos.toNat = 28
    · simp [e]
    · simp [e]
  · by_cases e : s.pos.toNat = 35
    · simp [e]
    · simp [e]
  · by_cases e : s.pos.toNat = 58
    · simp [e]
    · simp [e]

/-- APPEND at position 59: nothing is stored or decoded, the running parity still takes the bit in, and the buffer is cleared
(rules R142, R145, R146). -/
theorem State.appendBit_of_ge (s : State) (b : Bool) (now : Nat) (h : 59 ≤ s.pos.toNat) :
    s.appendBit b now = { s with buf := 0, pos := 0, par_run := (s.par_run ^^ b) } := by
  have h59 : s.pos.toNat + 1 > Config.frameBits := by simp; omega
  have h58 : ¬ s.pos.toNat ≤ 58 := by omega
  have hlt := s.pos.isLt
  simp only [State.appendBit, h59, if_true]
  rw [State.finalizeFrame_of_not_ready]
  · have e1 : s.pos.toNat ≠ 21 := by omega
    have e2 : s.pos.toNat ≠ 29 := by omega
    have e3 : s.pos.toNat ≠ 36 := by omega
    have e4 : s.pos.toNat ≠ 28 := by omega
    have e5 : s.pos.toNat ≠ 35 := by omega
    have e6 : s.pos.toNat ≠ 58 := by omega
    apply State.ext <;> simp [e1, e2, e3, e4, e5, e6]
  · rintro ⟨hp, -⟩
    simp at hp; omega

/-- APPEND writes only the buffer, the position and the parity flags. -/
theorem State.appendBit_frame (s : State) (b : Bool) (now : Nat) :
    s.appendBit b now =
      { s with
        buf := (s.appendBit b now).buf, pos := (s.appendBit b now).pos, par_run := (s.appendBit b now).par_run,
        par_min := (s.appendBit b now).par_min, par_hour := (s.appendBit b now).par_hour,
        par_date := (s.appendBit b now).par_date } := by
  by_cases h : s.pos.toNat ≤ 58
  · rw [State.appendBit_of_le s b now h]
  · rw [State.appendBit_of_ge s b now (by omega)]

end Sys2Proof.Machine
end

