-- ==== Sys2Proof/Laws/EdgeClassifier.lean ====
section
/-! SUPPORT. What EDGE can do, said once: the three cases of a RISE and the one of a FALL (spec/41_edge_classifier.md rules R121 to R127). -/

namespace Sys2Proof.Machine

theorem State.rise_of_sync {s : State} {t : Nat} (h : 1200 < t - s.ref) :
    s.rise t = (s.finalizeFrame t).setRef t := by
  simp [State.rise, State.sinceRef, h]

theorem State.rise_of_spurious {s : State} {t : Nat} (h : t - s.ref < 300) : s.rise t = s.rollback := by
  have h1 : ¬ 1200 < t - s.ref := by omega
  simp [State.rise, State.sinceRef, h, h1]

theorem State.rise_of_accepted {s : State} {t : Nat} (h1 : 300 ≤ t - s.ref) (h2 : t - s.ref ≤ 1200) :
    s.rise t = s.setRef t := by
  have h1' : ¬ t - s.ref < 300 := by omega
  have h2' : ¬ 1200 < t - s.ref := by omega
  simp [State.rise, State.sinceRef, h1', h2']

/-- A RISE does one of three things (rule R122). -/
theorem State.rise_cases (s : State) (t : Nat) :
    (1200 < t - s.ref ∧ s.rise t = (s.finalizeFrame t).setRef t) ∨
    (t - s.ref < 300 ∧ s.rise t = s.rollback) ∨
    (300 ≤ t - s.ref ∧ t - s.ref ≤ 1200 ∧ s.rise t = s.setRef t) := by
  by_cases h : 1200 < t - s.ref
  · exact .inl ⟨h, State.rise_of_sync h⟩
  by_cases h' : t - s.ref < 300
  · exact .inr (.inl ⟨h', State.rise_of_spurious h'⟩)
  · exact .inr (.inr ⟨by omega, by omega, State.rise_of_accepted (by omega) (by omega)⟩)

theorem State.fall_eq (s : State) (t : Nat) : s.fall t = s.appendBit (decide (140 ≤ t - s.ref)) t := by
  simp [State.fall, State.sinceRef]

theorem State.onEdge_of_rise {s : State} {lvl : Bool} (h : s.isRise lvl) (t : Nat) :
    s.onEdge t lvl = (s.driveIndicator lvl).rise t := by
  unfold State.isRise at h
  simp [State.onEdge, pulseLevel, h]

theorem State.onEdge_of_fall {s : State} {lvl : Bool} (h : ¬ s.isRise lvl) (t : Nat) :
    s.onEdge t lvl = (s.driveIndicator lvl).fall t := by
  unfold State.isRise at h
  simp [State.onEdge, pulseLevel, h]

end Sys2Proof.Machine
end

