-- ==== Sys2Proof/Laws/Exec.lean ====
section
/-! SUPPORT. What `exec`, `execAll` and `step` can answer, said once each. -/

namespace Sys2Proof.Machine

/-! ## The timestamp premise -/

theorem timestamped_of_le {t : Nat} {s : State} (act : State → State) (h : s.lastTime ≤ t) :
    timestamped t act s = .next (act (s.stamp t)) := by
  simp [timestamped, State.admits, h]

theorem timestamped_of_lt {t : Nat} {s : State} (act : State → State) (h : t < s.lastTime) :
    timestamped t act s = .refused .timestampDecreased := by
  have : ¬ s.lastTime ≤ t := by omega
  simp [timestamped, State.admits, this]

/-- A timestamped operation that answers a next state had an admissible timestamp. -/
theorem timestamped_next {t : Nat} {s s' : State} {act : State → State} (h : timestamped t act s = .next s') :
    s.lastTime ≤ t ∧ s' = act (s.stamp t) := by
  by_cases hle : s.lastTime ≤ t
  · rw [timestamped_of_le act hle] at h
    cases h; exact ⟨hle, rfl⟩
  · rw [timestamped_of_lt act (by omega)] at h
    cases h

/-! ## exec, by instruction -/

theorem exec_edge {t : Nat} {s : State} (lvl : Bool) (h : s.lastTime ≤ t) :
    exec (.edge t lvl) s = .next ((s.stamp t).onEdge t lvl) := timestamped_of_le _ h

theorem exec_append {now : Nat} {s : State} (b : Bool) (h : s.lastTime ≤ now) :
    exec (.append b now) s = .next ((s.stamp now).appendBit b now) := timestamped_of_le _ h

theorem exec_finalize {now : Nat} {s : State} (h : s.lastTime ≤ now) :
    exec (.finalize now) s = .next ((s.stamp now).finalizeFrame now) := timestamped_of_le _ h

theorem exec_issynced {now : Nat} {s : State} (h : s.lastTime ≤ now) :
    exec (.issynced now) s = .next ((s.stamp now).returnResult (.issynced ((s.stamp now).synced now))) :=
  timestamped_of_le _ h

/-- An EDGE that answers a next state is one of the four cases of the Edge Classifier. -/
theorem exec_edge_next {t : Nat} {lvl : Bool} {s s' : State} (h : exec (.edge t lvl) s = .next s') :
    s.lastTime ≤ t ∧
    ((s.isRise lvl ∧ 1200 < t - s.ref ∧ s' = (((s.stamp t).driveIndicator lvl).finalizeFrame t).setRef t) ∨
     (s.isRise lvl ∧ t - s.ref < 300 ∧ s' = ((s.stamp t).driveIndicator lvl).rollback) ∨
     (s.isRise lvl ∧ 300 ≤ t - s.ref ∧ t - s.ref ≤ 1200 ∧ s' = ((s.stamp t).driveIndicator lvl).setRef t) ∨
     (¬ s.isRise lvl ∧ s' = ((s.stamp t).driveIndicator lvl).appendBit (decide (140 ≤ t - s.ref)) t)) := by
  obtain ⟨hle, rfl⟩ := timestamped_next h
  refine ⟨hle, ?_⟩
  by_cases hr : s.isRise lvl
  · have e := State.onEdge_of_rise (s := s.stamp t) hr t
    rcases State.rise_cases ((s.stamp t).driveIndicator lvl) t with ⟨h1, h2⟩ | ⟨h1, h2⟩ | ⟨h1, h1', h2⟩
    · exact .inl ⟨hr, h1, e.trans h2⟩
    · exact .inr (.inl ⟨hr, h1, e.trans h2⟩)
    · exact .inr (.inr (.inl ⟨hr, h1, h1', e.trans h2⟩))
  · have e := State.onEdge_of_fall (s := s.stamp t) hr t
    exact .inr (.inr (.inr ⟨hr, e.trans (State.fall_eq _ _)⟩))

/-! ## Sequences -/

@[simp] theorem execAll_nil (s : State) : execAll [] s = .next s := rfl

theorem execAll_cons_of_next {i : Instr} {s s' : State} (h : exec i s = .next s') (is : List Instr) :
    execAll (i :: is) s = execAll is s' := by
  simp only [execAll, h]

/-- A sequence that runs to its end runs its first operation and then the rest. -/
theorem execAll_cons_next {i : Instr} {is : List Instr} {s s' : State} (h : execAll (i :: is) s = .next s') :
    ∃ m, exec i s = .next m ∧ execAll is m = .next s' := by
  simp only [execAll] at h
  split at h
  · exact ⟨_, ‹_›, h⟩
  · cases h
  · cases h

theorem execAll_append_of_next {is js : List Instr} {s m : State} (h : execAll is s = .next m) :
    execAll (is ++ js) s = execAll js m := by
  induction is generalizing s with
  | nil => cases h; rfl
  | cons i is ih =>
    obtain ⟨m', h1, h2⟩ := execAll_cons_next h
    rw [List.cons_append, execAll_cons_of_next h1, ih h2]

/-! ## step -/

/-- The four things a step can be, by the head of the input port. -/
theorem step_cases {s s' : State} (h : step s = .next s') :
    (s.inputs = [] ∧ s' = s) ∨
    (∃ i rest, (s.inputs = .operation i :: rest ∨ ∃ w, s.inputs = .word w :: rest ∧ i = decode w) ∧
      exec i (s.consume rest) = .next s') ∨
    (∃ inv rest, s.inputs = .reset inv :: rest ∧ s' = (s.consume rest).applyReset inv) := by
  unfold step at h
  split at h
  · cases h; exact .inl ⟨‹_›, rfl⟩
  · exact .inr (.inl ⟨_, _, .inr ⟨_, ‹_›, rfl⟩, h⟩)
  · exact .inr (.inl ⟨_, _, .inl ‹_›, h⟩)
  · cases h; exact .inr (.inr ⟨_, _, ‹_›, rfl⟩)

end Sys2Proof.Machine
end

