-- ==== Sys2Proof/Laws/PerInstr.lean ====
section
/-! SUPPORT. Facts about every instruction as syntax, one lemma per constructor. Family `CanonicalWord`: the encoder's word of an
instruction belongs to the row of spec/opcode_table.json that carries its mnemonic. -/

namespace Sys2Proof.Laws

/-- The word `encode i` lies in the table row of `i`'s mnemonic. -/
def CanonicalWord.Statement (i : Instr) : Prop :=
  ∃ r ∈ opcodeTable, r.mnemonic = i.mnemonic ∧ encode i &&& r.mask = r.pattern

/-- A word with operation code `op` keeps exactly that code under the table's mask. -/
theorem eventWord_and_mask (op : BitVec 3) (lvl : Bool) (ts : BitVec 32) :
    eventWord op lvl ts &&& 0xE00000000#36 = eventWord op false 0 := by
  have hm : (0xE00000000#36) = eventWord 0b111 false 0 := by decide
  rw [hm]
  apply BitVec.eq_of_getLsbD_eq
  intro k hk
  simp only [BitVec.getLsbD_and, eventWord_getLsbD]
  by_cases h1 : k < 32
  · simp [h1]
  · by_cases h2 : k = 32
    · simp [h2]
    · have h4 : k - 33 = 0 ∨ k - 33 = 1 ∨ k - 33 = 2 := by omega
      rcases h4 with h4 | h4 | h4 <;> simp [h1, h2, h4]

theorem CanonicalWord.nop : Statement .nop := ⟨⟨"NOP", 0x000000000, 0xE00000000⟩, by decide, rfl, by decide⟩
theorem CanonicalWord.tick : Statement .tick := ⟨⟨"TICK", 0x200000000, 0xE00000000⟩, by decide, rfl, by decide⟩
theorem CanonicalWord.edge (t : Nat) (lvl : Bool) : Statement (.edge t lvl) :=
  ⟨⟨"EDGE", 0x400000000, 0xE00000000⟩, by decide, rfl, eventWord_and_mask 0b010 lvl _⟩
theorem CanonicalWord.append (b : Bool) (now : Nat) : Statement (.append b now) :=
  ⟨⟨"APPEND", 0x600000000, 0xE00000000⟩, by decide, rfl, eventWord_and_mask 0b011 b _⟩
theorem CanonicalWord.finalize (now : Nat) : Statement (.finalize now) :=
  ⟨⟨"FINALIZE", 0x800000000, 0xE00000000⟩, by decide, rfl, eventWord_and_mask 0b100 false _⟩
theorem CanonicalWord.readtime : Statement .readtime := ⟨⟨"READTIME", 0xA00000000, 0xE00000000⟩, by decide, rfl, by decide⟩
theorem CanonicalWord.gettime : Statement .gettime := ⟨⟨"GETTIME", 0xC00000000, 0xE00000000⟩, by decide, rfl, by decide⟩
theorem CanonicalWord.issynced (now : Nat) : Statement (.issynced now) :=
  ⟨⟨"ISSYNCED", 0xE00000000, 0xE00000000⟩, by decide, rfl, eventWord_and_mask 0b111 false _⟩

end Sys2Proof.Laws
end

