-- ==== Sys2Proof/Tests/Slice0.lean ====
section
/-! SUPPORT. The session's own tests. Expected values come from the vectors of spec/95_test_vectors.md (each test names its vector) or from
the rules named; the well-formedness smoke tests; and for each obligation with hypotheses a witness that meets them. -/

namespace Sys2Proof.Tests

open Sys2Proof Sys2Proof.Machine Host

/-! ## Helpers -/

/-- `i` answers a next state that satisfies `p`. -/
def after (i : Instr) (s : State) (p : State → Bool) : Bool :=
  match exec i s with
  | .next s' => p s'
  | .fault _ => false
  | .refused _ => false

/-- The reset state with the clock set (the columns "before" of spec/95_test_vectors.md section 2.1). -/
def clockAt (tick : BitVec 10) (ss : BitVec 6) (mm : BitVec 7) (hh : BitVec 6) : State :=
  { State.reset with tick := tick, ss := ss, mm := mm, hh := hh }

/-- The clock's four registers, to compare. -/
def clockOf (s : State) : Nat × Nat × Nat × Nat := (s.tick.toNat, s.ss.toNat, s.mm.toNat, s.hh.toNat)

/-- DecodedTime, to compare. -/
def dateOf (s : State) : List Nat :=
  [s.dt.second.toNat, s.dt.minute.toNat, s.dt.hour.toNat, s.dt.day.toNat, s.dt.month.toNat, s.dt.year.toNat]

/-- The start state of the edge vectors V2.1 to V2.8. -/
def midFrame : State := { State.reset with ref := 10000, lastTime := 10000, pos := 7, buf := 0x55 }

/-- Frame X1 of spec/95_test_vectors.md section 2.5, all three parity bits 0. -/
def frameX1 : Memory := 0x090CC5286000000

/-- Frame X4: every data bit 1, parity bits 1, 0, 0. -/
def frameX4 : Memory := 0x3FFFFF7FFFFFFFF

/-- Frame X6: X1 with day 0. -/
def frameX6 : Memory := 0x090CC0286000000

/-- X1 received complete (the column "before" of V5.1). -/
def complete : State := { State.reset with pos := 59, buf := frameX1 }

/-- The state of V6.5: day 5, month 6, last commit at 70000. -/
def syncedAt70000 : State :=
  { State.reset with dt := { DecodedTime.reset with day := 5, month := 6 }, last_sync := 70000, lastTime := 70000 }

/-- The state of V6.15. -/
def dated : State :=
  { State.reset with ss := 9, mm := 7, hh := 8, dt := ⟨0, 1, 2, 3, 4, 2005⟩, last_sync := 1, lastTime := 1 }

/-! ## Well-formedness: an ill-formed term for each check is refused (rule R98) -/

theorem test_smoke_edge : (Instr.edge 4294967296 true).wf = false := by decide
theorem test_smoke_append : (Instr.append true 4294967296).wf = false := by decide
theorem test_smoke_finalize : (Instr.finalize 4294967296).wf = false := by decide
theorem test_smoke_issynced : (Instr.issynced 4294967296).wf = false := by decide
theorem test_smoke_largest_timestamp : (Instr.edge 4294967295 true).wf = true := by decide

/-! ## Decoding: words written out in spec/95_test_vectors.md section 2.7 -/

/-- V7.1. -/
theorem test_decode_nop : decode 0x000000000 = .nop := by decide
/-- V7.2, V7.11 (ignored fields set). -/
theorem test_decode_tick : decode 0x200000000 = .tick ∧ decode 0x3FFFFFFFF = .tick := by decide
/-- V7.3, V7.4, V7.13. -/
theorem test_decode_edge : decode 0x500002710 = .edge 10000 true ∧ decode 0x400002774 = .edge 10100 false ∧
    decode 0x5FFFFFFFF = .edge 4294967295 true := by decide
/-- V7.5, V7.6. -/
theorem test_decode_append : decode 0x600000000 = .append false 0 ∧ decode 0x700000000 = .append true 0 := by decide
/-- V7.7, V7.12 (`lvl` ignored). -/
theorem test_decode_finalize : decode 0x800011170 = .finalize 70000 ∧ decode 0x900000005 = .finalize 5 := by decide
/-- V7.8. -/
theorem test_decode_readtime : decode 0xA00000000 = .readtime := by decide
/-- V7.9. -/
theorem test_decode_gettime : decode 0xC00000000 = .gettime := by decide
/-- V7.10. -/
theorem test_decode_issynced : decode 0xE0002E630 = .issynced 190000 := by decide
/-- V7.3, V7.10 the other way. -/
theorem test_encode_words : encode (.edge 10000 true) = 0x500002710 ∧ encode (.issynced 190000) = 0xE0002E630 := by decide
/-- Rule R94: the 36-bit word in five bytes; a bit above bit 35 makes it no event word. -/
theorem test_decode_five_bytes : decodeTableWord 40 0x500002710 = some (.edge 10000 true) ∧
    decodeTableWord 40 0x1000000000 = none := by decide
/-- The word V7.3 delivered after reset is the next thing to run: V2.23's sync gap on the empty buffer. -/
theorem test_step_runs_the_offered_word :
    step (State.reset.withFetchWord 40 0x500002710) = exec (.edge 10000 true) State.reset := rfl

/-- The text form (rule R101, V7.3) and `PULSE 69000 100` of program P4 as event words. -/
theorem test_text_and_pulse : instrText (.edge 10000 true) = "EDGE 10000 1" ∧
    ((PseudoOp.pulse 69000 100).expand false).map encode = [0x500010D88, 0x400010DEC] := by
  refine ⟨rfl, by decide⟩

/-- `FRAME 10000 X1` of program P2: 118 words, the first four and the last two as the spec lists them. -/
theorem test_frame : ((PseudoOp.frame 10000 frameX1).expand false).length = 118 ∧
    (((PseudoOp.frame 10000 frameX1).expand false).map encode).take 4 = [0x500002710, 0x400002774, 0x500002AF8, 0x400002B5C] ∧
    (((PseudoOp.frame 10000 frameX1).expand false).map encode).drop 116 = [0x5000109A0, 0x400010A04] := by decide

/-! ## One step per instruction -/

/-- V6.16. -/
theorem test_nop : exec .nop dated = .next dated := rfl
/-- V1.17a: the full rollover. -/
theorem test_tick_rollover : after .tick (clockAt 999 59 59 23) (fun s => clockOf s == (0, 0, 0, 0)) = true := by decide
/-- V1.18: `mm` = 85 returns to 0 and carries. -/
theorem test_tick_out_of_range : after .tick (clockAt 999 59 85 14) (fun s => clockOf s == (0, 0, 0, 15)) = true := by decide
/-- V2.2: a gap of 299 rolls back and leaves `ref` and the buffer. -/
theorem test_edge_spurious : after (.edge 10299 true) midFrame
    (fun s => s.ref == 10000 && s.pos == 6 && s.buf == 0x55) = true := by decide
/-- V2.17: with `INVERTED` = 1 the level 0 is a RISE, and the indicator shows the raw level. -/
theorem test_edge_inverted : after (.edge 11000 false) { midFrame with inverted := true }
    (fun s => s.ref == 11000 && s.pos == 7 && s.indicator == some false) = true := by decide
/-- V3.8: the minute parity is latched before P1 is counted. -/
theorem test_append_latch : after (.append true 0) { State.reset with pos := 28, par_run := true }
    (fun s => s.buf == 0x000000010000000 && s.pos == 29 && s.par_run == false && s.par_min == true) = true := by decide
/-- V3.23: the sixtieth bit throws the frame away. -/
theorem test_append_overflow : after (.append true 777) complete
    (fun s => s.buf == 0 && s.pos == 0 && s.par_run == true && s.last_sync == 0 && s.dt == DecodedTime.reset) = true := by decide
/-- V5.1: X1 commits. -/
theorem test_finalize_commits : after (.finalize 5000) complete (fun s =>
    dateOf s == [0, 30, 14, 5, 6, 2024] && clockOf s == (0, 0, 30, 14) && s.last_sync == 5000 && s.buf == 0 && s.pos == 0) = true := by
  decide
/-- V5.4: invalid digits are converted as they stand. -/
theorem test_finalize_invalid_bcd : after (.finalize 5000) { State.reset with pos := 59, buf := frameX4, par_min := true }
    (fun s => dateOf s == [0, 85, 45, 45, 25, 2165] && clockOf s == (0, 0, 85, 45)) = true := by decide
/-- V6.15. -/
theorem test_readtime : after .readtime dated (fun s => s.results == [.readtime 8 7 9]) = true := by decide
/-- V6.15: time of day from the clock, not from `dt`. -/
theorem test_gettime : after .gettime dated (fun s => s.results == [.gettime 9 7 8 3 4 2005]) = true := by decide
/-- V6.5: exactly 120000 ms is still true. -/
theorem test_issynced_last_moment : after (.issynced 190000) syncedAt70000 (fun s => s.results == [.issynced true]) = true := by decide
/-- V6.6. -/
theorem test_issynced_stale : after (.issynced 190001) syncedAt70000 (fun s => s.results == [.issynced false]) = true := by decide
/-- Rule R16: a decreasing timestamp is refused; an equal one is not. -/
theorem test_decreasing_timestamp : exec (.edge 9999 true) midFrame = .refused .timestampDecreased ∧
    after (.edge 10000 true) midFrame (fun s => s.pos == 6) = true := ⟨rfl, by decide⟩

/-! ## Witnesses: the hypotheses of the obligations can be met -/

theorem witness_DecodeOfEncodeIsTheInstruction : (Instr.edge 4294967295 true).wf = true ∧ (Instr.issynced 0).wf = true := by decide

theorem witness_EveryEventWordDecodesByItsCode :
    (Instr.nop).timestamp = none ∧ (⟨"EDGE", 0x400000000, 0xE00000000⟩ : OpcodeRow) ∈ opcodeTable := by decide

theorem witness_StepRunsTheNextInput :
    { State.reset with inputs := [.word 0x200000000] }.inputs = .word 0x200000000 :: [] ∧
    { State.reset with inputs := [.operation (.edge 4294967296 true)] }.inputs = .operation (.edge 4294967296 true) :: [] ∧
    { State.reset with inputs := [.reset true] }.inputs = .reset true :: [] ∧ State.reset.inputs = [] := by decide

theorem witness_OfferedWordIsRunByTheNextStep : (Instr.append true 4294967295).wf = true := by decide

theorem witness_RefusedExactlyWhenTimestampDecreases :
    (∀ t, (Instr.edge 10000 true).timestamp = some t → midFrame.lastTime ≤ t) ∧
    ((Instr.issynced 9999).timestamp = some 9999 ∧ 9999 < midFrame.lastTime) :=
  ⟨fun t h => by cases h; decide, rfl, by decide⟩

theorem witness_SequenceRunsExactlyUnderThePremise :
    List.Pairwise (· ≤ ·) (midFrame.lastTime :: [Instr.edge 10000 true, .tick, .edge 10000 false].filterMap Instr.timestamp) ∧
    ¬ List.Pairwise (· ≤ ·) (midFrame.lastTime :: [Instr.edge 10001 true, .edge 10000 false].filterMap Instr.timestamp) := by decide

theorem witness_TickCountsWithCarry :
    ((clockAt 998 59 59 23).tick.toNat + 1 < 1000 ∧ (999#10).toNat = (clockAt 998 59 59 23).tick.toNat + 1) ∧
    (1000 ≤ (clockAt 999 58 59 23).tick.toNat + 1 ∧ (clockAt 999 58 59 23).ss.toNat + 1 < 60 ∧
      (59#6).toNat = (clockAt 999 58 59 23).ss.toNat + 1) ∧
    (60 ≤ (clockAt 999 59 58 23).ss.toNat + 1 ∧ (clockAt 999 59 58 23).mm.toNat + 1 < 60 ∧
      (59#7).toNat = (clockAt 999 59 58 23).mm.toNat + 1) ∧
    (60 ≤ (clockAt 999 59 59 22).mm.toNat + 1 ∧ (clockAt 999 59 59 22).hh.toNat + 1 < 24 ∧
      (23#6).toNat = (clockAt 999 59 59 22).hh.toNat + 1) ∧
    (1000 ≤ (clockAt 999 59 59 23).tick.toNat + 1 ∧ 60 ≤ (clockAt 999 59 59 23).ss.toNat + 1 ∧
      60 ≤ (clockAt 999 59 59 23).mm.toNat + 1 ∧ 24 ≤ (clockAt 999 59 59 23).hh.toNat + 1) := by decide

theorem witness_TicksAdvanceTheClockModuloADay : (clockAt 999 59 59 23).ClockInRange := by constructor <;> decide

theorem witness_OutOfRangeClockReturnsToRange :
    ((clockAt 999 59 85 45).tick.toNat = 999 ∧ (clockAt 999 59 85 45).ss.toNat = 59 ∧ 59 ≤ (clockAt 999 59 85 45).mm.toNat ∧
      23 ≤ (clockAt 999 59 85 45).hh.toNat) ∧
    ((clockAt 999 59 85 22).tick.toNat = 999 ∧ (clockAt 999 59 85 22).ss.toNat = 59 ∧ 59 ≤ (clockAt 999 59 85 22).mm.toNat ∧
      (clockAt 999 59 85 22).hh.toNat < 23) := by decide

/-- The frame of `complete` is acceptable, that of V5.8 (P1 inverted) is not. -/
theorem witness_FrameReady : complete.FrameReady ∧ ¬ ({ complete with buf := 0x090CC5296000000 } : State).FrameReady :=
  ⟨by unfold State.FrameReady; decide, by unfold State.FrameReady; decide⟩

/-- Gap 1201 on an acceptable frame (`complete`) and on one of seven bits (V2.7). -/
theorem witness_SyncGapRiseFinalizes :
    (complete.lastTime ≤ 1201 ∧ complete.isRise true ∧ 1200 < 1201 - complete.ref ∧ complete.FrameReady) ∧
    (midFrame.lastTime ≤ 11201 ∧ midFrame.isRise true ∧ 1200 < 11201 - midFrame.ref ∧ ¬ midFrame.FrameReady) := by
  unfold State.FrameReady State.isRise; decide

/-- Gaps 0 and 299 (V2.1, V2.2). -/
theorem witness_SpuriousRiseOnlyRollsBack :
    (midFrame.lastTime ≤ 10000 ∧ midFrame.ref ≤ 10000 ∧ midFrame.isRise true ∧ 10000 - midFrame.ref < 300) ∧
    (midFrame.lastTime ≤ 10299 ∧ midFrame.ref ≤ 10299 ∧ midFrame.isRise true ∧ 10299 - midFrame.ref < 300) := by
  unfold State.isRise; decide

/-- Gaps 300 and 1200 (V2.3, V2.6). -/
theorem witness_AcceptedRiseOnlyMovesRef :
    (midFrame.lastTime ≤ 10300 ∧ midFrame.isRise true ∧ 300 ≤ 10300 - midFrame.ref ∧ 10300 - midFrame.ref ≤ 1200) ∧
    (midFrame.lastTime ≤ 11200 ∧ midFrame.isRise true ∧ 300 ≤ 11200 - midFrame.ref ∧ 11200 - midFrame.ref ≤ 1200) := by
  unfold State.isRise; decide

/-- Widths 139 and 140 (V2.12, V2.13). -/
theorem witness_FallAppendsTheClassifiedBit :
    (midFrame.lastTime ≤ 10139 ∧ midFrame.ref ≤ 10139 ∧ ¬ midFrame.isRise false ∧ 10139 - midFrame.ref < 140) ∧
    (midFrame.lastTime ≤ 10140 ∧ midFrame.ref ≤ 10140 ∧ ¬ midFrame.isRise false ∧ 140 ≤ 10140 - midFrame.ref) := by
  unfold State.isRise; decide

theorem witness_PolarityOnlyRenamesTheLevels : midFrame.lastTime ≤ 10000 := by decide

theorem witness_IndicatorIsAStatelessPassthrough :
    after (.edge 10000 true) midFrame (fun _ => true) = true ∧ (∀ (t : Nat) (lvl : Bool), Instr.tick ≠ .edge t lvl) ∧
    after .tick midFrame (fun _ => true) = true :=
  ⟨by decide, by simp, by decide⟩

/-- V2.20, V2.21, and the same with the other polarity. -/
theorem witness_FirstRiseIsClassifiedByItsTimestamp :
    ((true ^^ false) = true ∧ 299 < 300) ∧ ((false ^^ true) = true ∧ 300 ≤ 300) := by decide

theorem witness_AppendStoresOneBitAtThePosition :
    State.reset.lastTime ≤ 0 ∧ State.reset.pos.toNat ≤ 58 ∧ ({ State.reset with pos := 58 } : State).pos.toNat ≤ 58 := by decide

theorem witness_AppendUpdatesTheParityFlags :
    State.reset.lastTime ≤ 0 ∧ ({ State.reset with pos := 21 } : State).pos.toNat = 21 ∧
    (({ State.reset with pos := 28 } : State).pos.toNat ≠ 21 ∧ ({ State.reset with pos := 28 } : State).pos.toNat ≠ 29 ∧
      ({ State.reset with pos := 28 } : State).pos.toNat ≠ 36) := by decide

/-- The flags at 28, 35 and 58 in a frame received without rollback (X1 with its later cells still clear). -/
theorem witness_AppendUpdatesTheParityFlags_fields :
    (({ State.reset with pos := 28, buf := 0x6000000 } : State).ParityTracksBuffer) ∧
    (({ State.reset with pos := 35, buf := 0x286000000 } : State).ParityTracksBuffer) ∧
    (({ State.reset with pos := 58, buf := frameX1 } : State).ParityTracksBuffer) := by
  refine ⟨?_, ?_, ?_⟩ <;> constructor <;> decide

theorem witness_SixtiethBitDiscardsTheFrame :
    complete.lastTime ≤ 777 ∧ complete.pos.toNat = 59 ∧ ({ complete with pos := 58 } : State).pos.toNat ≤ 58 := by decide

/-- X1 is accepted; 58 bits, and X1 with P1, P2 or P3 inverted (V5.8, V5.9, V5.12), are not. -/
theorem witness_FinalizeCommitsOrDiscards :
    (complete.lastTime ≤ 5000 ∧ complete.pos.toNat = 59 ∧ complete.par_min = complete.buf.bit 28 ∧
      complete.par_hour = complete.buf.bit 35 ∧ complete.par_date = complete.buf.bit 58) ∧
    ({ complete with pos := 58 } : State).pos.toNat ≠ 59 ∧
    complete.par_min ≠ Memory.bit 0x090CC5296000000 28 ∧ complete.par_hour ≠ Memory.bit 0x090CC5A86000000 35 ∧
    complete.par_date ≠ Memory.bit 0x490CC5286000000 58 := by decide

theorem witness_OnlyASyncGapOrFinalizeCommits :
    after (.finalize 5000) complete (fun s => s.dt != complete.dt && s.last_sync != complete.last_sync) = true ∧
    after (.edge 1201 true) complete (fun s => s.dt != complete.dt && s.last_sync != complete.last_sync) = true := by decide

theorem witness_DecodedTimeIsReplacedAsOneUnit :
    (complete.Commits (.finalize 5000) ∧ after (.finalize 5000) complete (fun _ => true) = true) ∧
    (complete.Commits (.edge 1201 true) ∧ after (.edge 1201 true) complete (fun _ => true) = true) ∧
    (¬ complete.Commits (.edge 1200 true) ∧ after (.edge 1200 true) complete (fun _ => true) = true) := by
  unfold State.Commits State.isRise State.FrameReady; decide

theorem witness_BcdConversionOfTensAndOnes : 0 ≤ 15 ∧ 15 ≤ 15 := by decide

theorem witness_FieldReadWeighsTheLowestAddressLeast : 0 + 59 ≤ 59 ∧ 51 + 8 ≤ 59 := by decide

theorem witness_FrameAppendsLeaveItsBitsAndParities : State.reset.lastTime ≤ 5000 ∧ State.reset.pos = 0 := by decide

/-- X1 and X4 are balanced; X1 with P1 inverted is not. -/
theorem witness_Balanced : frameX1.Balanced ∧ frameX4.Balanced ∧ ¬ (frameX1.flip 28).Balanced := by
  unfold Memory.Balanced; decide

theorem witness_SingleFlippedBitIsNeverCommitted :
    State.reset.lastTime ≤ 5000 ∧ State.reset.pos = 0 ∧ frameX1.Balanced ∧ (21 ≤ 21 ∧ 58 ≤ 58) ∧ 20 ≤ 20 := by
  unfold Memory.Balanced; decide

theorem witness_RolledBackBitStaysInTheParity :
    (midFrame.lastTime ≤ 10299 ∧ midFrame.ref ≤ 10299 ∧ 10299 - midFrame.ref < 300 ∧ midFrame.isRise true ∧ midFrame.pos.toNat ≤ 58 ∧
      midFrame.pos.toNat ≠ 21 ∧ midFrame.pos.toNat ≠ 29 ∧ midFrame.pos.toNat ≠ 36) ∧
    ({ midFrame with pos := 58 } : State).pos.toNat ≤ 58 ∧ ({ midFrame with pos := 36 } : State).pos.toNat = 36 := by
  unfold State.isRise; decide

theorem witness_ParityTracksTheBufferWithoutRollback :
    ({ State.reset with pos := 22, buf := 0x200000, par_run := true } : State).ParityTracksBuffer ∧
    ¬ ({ State.reset with pos := 22, buf := 0x200000, par_run := true } : State).RollsBack (.append true 0) := by
  refine ⟨?_, fun h => h⟩
  constructor <;> decide

theorem witness_CellsBehindThePositionAreClear : State.reset.CleanTail ∧ ¬ State.reset.RollsBack (.edge 300 true) ∧
    after (.edge 300 true) State.reset (fun _ => true) = true :=
  ⟨fun p _ => by simp [State.reset, State.resetWith, Memory.bit], by unfold State.RollsBack State.isRise; decide, by decide⟩

/-- A FALL, an accepted RISE at the gaps 300 and 1200, a spurious RISE at 299 and then a sync gap at 1201. -/
theorem witness_CompleteFrameWaitsForTheMarker :
    complete.lastTime ≤ 299 ∧ complete.ref ≤ 299 ∧ complete.pos.toNat = 59 ∧ ¬ complete.isRise false ∧
    (complete.isRise true ∧ 300 ≤ 300 - complete.ref ∧ 1200 - complete.ref ≤ 1200) ∧
    (complete.isRise true ∧ 299 - complete.ref < 300 ∧ complete.ref + 1200 < 1201 ∧ 299 ≤ 1201) := by
  unfold State.isRise; decide

/-- Program P2's line: pulses of 100 ms and 200 ms; and the extreme widths 0, 139, 140 and 1000. -/
theorem witness_Transmits :
    Transmits (fun s => if frameX1.bit s then 200 else 100) frameX1 ∧
    Transmits (fun s => if frameX1.bit s then 140 else 139) frameX1 ∧
    Transmits (fun s => if frameX1.bit s then 1000 else 0) frameX1 := by
  unfold Transmits; decide

/-- Program P2: `FRAME 10000 X1 ; MARK 70000` from reset, for X1 and for X1 with P1 inverted; and the accepted first edge at 300. -/
theorem witness_FrameOnTheLineIsDecoded :
    State.reset.lastTime ≤ 10000 ∧ State.reset.ref ≤ 10000 ∧ 1200 < 10000 - State.reset.ref ∧
    (300 ≤ 300 - State.reset.ref ∧ State.reset.pos = 0) ∧ 1200 < 70000 - (10000 + 58000) ∧
    Transmits (fun s => if frameX1.bit s then 200 else 100) frameX1 ∧ frameX1.Balanced ∧
    Transmits (fun s => if (frameX1.flip 28).bit s then 200 else 100) (frameX1.flip 28) ∧ ¬ (frameX1.flip 28).Balanced ∧
    ¬ State.reset.FrameReady := by
  unfold Transmits Memory.Balanced State.FrameReady; decide

/-- The clause of a frame waiting (X1) before an unbalanced one. -/
theorem witness_FrameOnTheLineIsDecoded_waiting :
    complete.lastTime ≤ 10000 ∧ complete.ref ≤ 10000 ∧ 1200 < 10000 - complete.ref ∧ complete.FrameReady ∧
    Transmits (fun s => if (frameX1.flip 28).bit s then 200 else 100) (frameX1.flip 28) ∧ ¬ (frameX1.flip 28).Balanced := by
  unfold Transmits Memory.Balanced State.FrameReady; decide

/-- V6.2 and V6.3 (a zero day or month), V6.5, V6.6. -/
theorem witness_IssyncedAnswers :
    (syncedAt70000.lastTime ≤ 190000 ∧ syncedAt70000.last_sync ≤ 190000 ∧ syncedAt70000.dt.day ≠ 0 ∧ syncedAt70000.dt.month ≠ 0 ∧
      190000 - syncedAt70000.last_sync ≤ 120000) ∧
    120000 < 190001 - syncedAt70000.last_sync ∧ State.reset.dt.day = 0 ∧ State.reset.dt.month = 0 := by decide

/-- X1 has a day and a month, X6 has day 0. -/
theorem witness_SyncedAfterACommitUntilStale :
    complete.lastTime ≤ 5000 ∧ 5000 ≤ 125000 ∧ complete.FrameReady ∧
    (decodedTime complete.buf).day ≠ 0 ∧ (decodedTime complete.buf).month ≠ 0 ∧
    ({ complete with buf := frameX6 } : State).FrameReady ∧ (decodedTime frameX6).day = 0 := by
  unfold State.FrameReady; decide

theorem witness_ReaderWritesNoRegister :
    isReaders (.issynced 70000) = true ∧ ∀ t, (Instr.issynced 70000).timestamp = some t → syncedAt70000.lastTime ≤ t :=
  ⟨rfl, fun t h => by cases h; decide⟩

theorem witness_OnlyRegistersDecideWhatOperationsDo :
    dated.registers = ({ dated with results := [.issynced true], indicator := some true } : State).registers ∧
    after .gettime dated (fun _ => true) = true := by decide

theorem witness_OnlyResetChangesInverted :
    step { dated with inputs := [.reset true] } = .next (State.resetWith true) ∧
    (∀ (inv : Bool) (rest : List Input), ({ dated with inputs := [.word 0] } : State).inputs ≠ .reset inv :: rest) ∧
    step { dated with inputs := [.word 0] } = .next dated :=
  ⟨rfl, by simp, rfl⟩

theorem witness_ContextsWriteOnlyTheirRegisters :
    after .tick dated (fun _ => true) = true ∧ after (.edge 300 true) dated (fun _ => true) = true ∧
    ¬ dated.Commits (.edge 300 true) ∧ isReaders .nop = true := by
  unfold State.Commits State.isRise State.FrameReady; decide

/-- The upper bounds of the invariant, in a state that has committed X4. -/
theorem witness_EveryStepKeepsTheInvariant :
    ({ clockAt 999 59 85 45 with
        dt := ⟨0, 85, 45, 45, 25, 2165⟩, last_sync := 5000, lastTime := 5000, pos := 59, inputs := [.word 0x200000000] } : State).Inv := by
  constructor <;> decide

theorem witness_TickCommutesUnlessClockIsSharedAtOnce :
    Instr.gettime ≠ .tick ∧ ¬ (clockAt 998 0 0 0).Commits .gettime ∧ (clockAt 998 0 0 0).tick.toNat < 999 ∧
    ¬ complete.Commits (.edge 1200 true) := by
  unfold State.Commits State.isRise State.FrameReady; decide

/-- Rule R222's example: `tick` = 999, clock 14:29:59, commit of 14:30. -/
theorem witness_TickAndCommittingRiseDoNotCommute :
    ({ complete with tick := 999, ss := 59, mm := 29, hh := 14 } : State).lastTime ≤ 70000 ∧
    ({ complete with tick := 999, ss := 59, mm := 29, hh := 14 } : State).tick.toNat = 999 ∧
    ({ complete with tick := 999, ss := 59, mm := 29, hh := 14 } : State).Commits (.edge 70000 true) := by
  unfold State.Commits State.isRise State.FrameReady; decide

/-- The first second after a commit lasts one tick (`tick` = 999) up to a thousand (`tick` = 0). -/
theorem witness_FirstSecondAfterACommit :
    complete.lastTime ≤ 5000 ∧ complete.FrameReady ∧ complete.tick.toNat ≤ 999 ∧
    ({ complete with tick := 999 } : State).FrameReady ∧ ({ complete with tick := 999 } : State).tick.toNat ≤ 999 := by
  unfold State.FrameReady; decide

end Sys2Proof.Tests
end

section
/-! PROOFS. The timestamp premise (spec/00_scope.md rule R16): what an operation does with the last timestamp given, by the timestamp it
carries, and from that when a sequence of operations runs to its end. -/

namespace Sys2Proof.Machine

/-! ## The state transformers leave the last timestamp alone -/

@[simp] theorem State.advanceTick_lastTime (s : State) : s.advanceTick.lastTime = s.lastTime := by
  rw [State.advanceTick_frame]

@[simp] theorem State.finalizeFrame_lastTime (now : Nat) (s : State) : (s.finalizeFrame now).lastTime = s.lastTime := by
  rcases s.finalizeFrame_cases now with ⟨-, h⟩ | ⟨-, h⟩
  · simp [h]
  · simp [h]

@[simp] theorem State.appendBit_lastTime (b : Bool) (now : Nat) (s : State) : (s.appendBit b now).lastTime = s.lastTime := by
  rw [State.appendBit_frame]

@[simp] theorem State.rise_lastTime (t : Nat) (s : State) : (s.rise t).lastTime = s.lastTime := by
  rcases s.rise_cases t with ⟨-, h⟩ | ⟨-, h⟩ | ⟨-, -, h⟩
  · simp [h]
  · simp [h]
  · simp [h]

@[simp] theorem State.onEdge_lastTime (t : Nat) (lvl : Bool) (s : State) : (s.onEdge t lvl).lastTime = s.lastTime := by
  by_cases h : s.isRise lvl
  · simp [State.onEdge_of_rise h]
  · simp [State.onEdge_of_fall h, State.fall_eq]

/-! ## exec, by the timestamp of the operation -/

/-- TICK, NOP, READTIME and GETTIME always run. -/
theorem exec_of_timestamp_none {i : Instr} (h : i.timestamp = none) (s : State) :
    ∃ m, exec i s = .next m ∧ m.lastTime = s.lastTime := by
  cases i with
  | nop => exact ⟨_, rfl, rfl⟩
  | tick => exact ⟨_, rfl, s.advanceTick_lastTime⟩
  | readtime => exact ⟨_, rfl, rfl⟩
  | gettime => exact ⟨_, rfl, rfl⟩
  | edge t lvl => cases h
  | append b now => cases h
  | finalize now => cases h
  | issynced now => cases h

/-- The other four are `timestamped`, by an action that leaves the last timestamp alone. -/
theorem exec_of_timestamp_some {i : Instr} {t : Nat} (h : i.timestamp = some t) :
    ∃ act : State → State, (∀ s, (act s).lastTime = s.lastTime) ∧ ∀ s, exec i s = timestamped t act s := by
  cases i with
  | edge t' lvl => cases h; exact ⟨_, State.onEdge_lastTime t lvl, fun _ => rfl⟩
  | append b now => cases h; exact ⟨_, State.appendBit_lastTime b t, fun _ => rfl⟩
  | finalize now => cases h; exact ⟨_, State.finalizeFrame_lastTime t, fun _ => rfl⟩
  | issynced now =>
    cases h
    exact ⟨fun s => s.returnResult (.issynced (s.synced t)), fun s => State.returnResult_lastTime _ s, fun _ => rfl⟩
  | nop => cases h
  | tick => cases h
  | readtime => cases h
  | gettime => cases h

theorem exec_of_timestamp_le {i : Instr} {t : Nat} {s : State} (h : i.timestamp = some t) (hle : s.lastTime ≤ t) :
    ∃ m, exec i s = .next m ∧ m.lastTime = t := by
  obtain ⟨act, hact, hexec⟩ := exec_of_timestamp_some h
  exact ⟨_, (hexec s).trans (timestamped_of_le act hle), hact _⟩

theorem exec_of_timestamp_lt {i : Instr} {t : Nat} {s : State} (h : i.timestamp = some t) (hlt : t < s.lastTime) :
    exec i s = .refused .timestampDecreased := by
  obtain ⟨act, -, hexec⟩ := exec_of_timestamp_some h
  exact (hexec s).trans (timestamped_of_lt act hlt)

/-! ## Sequences -/

theorem execAll_cons_of_refused {i : Instr} {s : State} {r : Refusal} (h : exec i s = .refused r) (is : List Instr) :
    execAll (i :: is) s = .refused r := by
  simp only [execAll, h]

/-- Settles O9, by induction on the sequence: its first operation leaves its own timestamp as the last one given, or, without one, the
last one as it was; a decreasing one is refused. -/
theorem sequenceRunsExactlyUnderThePremise : Obligations.SequenceRunsExactlyUnderThePremise := by
  intro is
  induction is with
  | nil => intro s; simp
  | cons i is ih =>
    intro s
    cases hi : i.timestamp with
    | none =>
      obtain ⟨m, hm, hlast⟩ := exec_of_timestamp_none hi s
      rw [execAll_cons_of_next hm, ih m, hlast, List.filterMap_cons_none hi]
    | some t =>
      rw [List.filterMap_cons_some hi, List.pairwise_cons_cons_iff_of_trans]
      by_cases hle : s.lastTime ≤ t
      · obtain ⟨m, hm, hlast⟩ := exec_of_timestamp_le hi hle
        rw [execAll_cons_of_next hm, ih m, hlast]
        simp [hle]
      · have hrefused := exec_of_timestamp_lt hi (Nat.lt_of_not_le hle)
        simp [execAll_cons_of_refused hrefused, hle]

end Sys2Proof.Machine
end

section
/-! PROOFS. The invariant of rule R38 (spec/10_state.md section 10): what the state after reset holds (rule R37), the groups of fields the
invariant bounds, each of the hardware's actions, and from these every operation and every step. -/

namespace Sys2Proof.Machine

/-! ## Reset -/

/-- Settles O42: `State.resetWith` writes these values, and an empty buffer has only clear cells. -/
theorem resetLeavesEveryRegisterZero : Obligations.ResetLeavesEveryRegisterZero := fun _ =>
  ⟨rfl, rfl, rfl, rfl, rfl, Memory.bit_zero, rfl, rfl, rfl, rfl, rfl, rfl, rfl, rfl⟩

/-- Settles O45: every bounded register is 0, and DecodedTime and `last_sync` are those of no commit yet. -/
theorem resetMeetsTheInvariant : Obligations.ResetMeetsTheInvariant := fun _ =>
  { tick_le := Nat.zero_le _
    ss_le := Nat.zero_le _
    mm_le := Nat.zero_le _
    hh_le := Nat.zero_le _
    pos_le := Nat.zero_le _
    dt_second := rfl
    dt_minute_le := Nat.zero_le _
    dt_hour_le := Nat.zero_le _
    dt_day_le := Nat.zero_le _
    dt_month_le := Nat.zero_le _
    dt_year := .inl rfl
    never_committed := fun _ => ⟨rfl, rfl⟩
    last_sync_le := le_rfl
    ref_le := le_rfl }

/-! ## The ranges of a converted frame (rule R153) -/

theorem decodedTime_minute_le (m : Memory) : (decodedTime m).minute.toNat ≤ 85 := by
  rw [decodedTime_minute]; exact bcd2bin_le_of_lt_two_pow.1 (m.read_lt 21 7)

theorem decodedTime_hour_le (m : Memory) : (decodedTime m).hour.toNat ≤ 45 := by
  rw [decodedTime_hour]; exact bcd2bin_le_of_lt_two_pow.2.1 (m.read_lt 29 6)

theorem decodedTime_day_le (m : Memory) : (decodedTime m).day.toNat ≤ 45 := by
  rw [decodedTime_day]; exact bcd2bin_le_of_lt_two_pow.2.1 (m.read_lt 36 6)

theorem decodedTime_month_le (m : Memory) : (decodedTime m).month.toNat ≤ 25 := by
  rw [decodedTime_month]; exact bcd2bin_le_of_lt_two_pow.2.2.1 (m.read_lt 45 5)

theorem decodedTime_year_bounds (m : Memory) :
    2000 ≤ (decodedTime m).year.toNat ∧ (decodedTime m).year.toNat ≤ 2165 := by
  have hyear := bcd2bin_le_of_lt_two_pow.2.2.2 (m.read_lt 50 8)
  rw [decodedTime_year]; omega

theorem decodedTime_year_ne_zero (m : Memory) : (decodedTime m).year ≠ 0 := by
  intro hzero
  have hyear := (decodedTime_year_bounds m).1
  rw [hzero] at hyear
  simp at hyear

/-! ## The invariant, by groups of fields -/

section
variable {s : State}

/-- The invariant does not speak of the ports, and a later last timestamp only loosens its bounds. -/
theorem State.Inv.withPorts (h : s.Inv) {t : Nat} (hle : s.lastTime ≤ t)
    (indicator : Option Bool) (results : List Result) (inputs : List Input) :
    ({ s with indicator := indicator, results := results, lastTime := t, inputs := inputs } : State).Inv :=
  { h with
    last_sync_le := h.last_sync_le.trans hle
    ref_le := h.ref_le.trans hle }

/-- Of the clock the invariant asks only the ranges. -/
theorem State.Inv.withClock (h : s.Inv) {tick : BitVec 10} {ss : BitVec 6} {mm : BitVec 7} {hh : BitVec 6}
    (htick : tick.toNat ≤ 999) (hss : ss.toNat ≤ 59) (hmm : mm.toNat ≤ 85) (hhh : hh.toNat ≤ 45) :
    ({ s with tick := tick, ss := ss, mm := mm, hh := hh } : State).Inv :=
  { h with
    tick_le := htick
    ss_le := hss
    mm_le := hmm
    hh_le := hhh }

/-- Of the frame under reception the invariant asks only the range of `pos`. -/
theorem State.Inv.withFrame (h : s.Inv) {pos : BitVec 6} (hpos : pos.toNat ≤ 59)
    (buf : Memory) (par_run par_min par_hour par_date : Bool) :
    ({ s with
        buf := buf, pos := pos, par_run := par_run, par_min := par_min, par_hour := par_hour,
        par_date := par_date } : State).Inv :=
  { h with pos_le := hpos }

theorem State.Inv.setRef (h : s.Inv) {t : Nat} (ht : t ≤ s.lastTime) : (s.setRef t).Inv :=
  { h with ref_le := ht }

/-- A commit stores a date whose year is not 0, at a timestamp already given. -/
theorem State.Inv.commit (h : s.Inv) {now : Nat} (hnow : now ≤ s.lastTime) : (s.commit now).Inv :=
  { h with
    ss_le := Nat.zero_le _
    mm_le := decodedTime_minute_le s.buf
    hh_le := decodedTime_hour_le s.buf
    dt_second := decodedTime_second s.buf
    dt_minute_le := decodedTime_minute_le s.buf
    dt_hour_le := decodedTime_hour_le s.buf
    dt_day_le := decodedTime_day_le s.buf
    dt_month_le := decodedTime_month_le s.buf
    dt_year := .inr (decodedTime_year_bounds s.buf)
    never_committed := fun hzero => absurd hzero (decodedTime_year_ne_zero s.buf)
    last_sync_le := hnow }

/-! ## The hardware's actions keep the invariant -/

theorem toNat_ofNat_le_of_le {w n b : Nat} (h : n ≤ b) : (BitVec.ofNat w n).toNat ≤ b :=
  (Nat.mod_le n (2 ^ w)).trans h

/-- TICK counts each register up to its last value in range, or takes it back to 0. -/
theorem State.Inv.advanceTick (h : s.Inv) : s.advanceTick.Inv := by
  rcases s.advanceTick_cases with
    ⟨htick, e⟩ | ⟨-, hss, e⟩ | ⟨-, -, hmm, e⟩ | ⟨-, -, -, hhh, e⟩ | ⟨-, -, -, -, e⟩ <;> rw [e]
  · exact h.withClock (toNat_ofNat_le_of_le (by omega)) h.ss_le h.mm_le h.hh_le
  · exact h.withClock (Nat.zero_le _) (toNat_ofNat_le_of_le (by omega)) h.mm_le h.hh_le
  · exact h.withClock (Nat.zero_le _) (Nat.zero_le _) (toNat_ofNat_le_of_le (by omega)) h.hh_le
  · exact h.withClock (Nat.zero_le _) (Nat.zero_le _) (Nat.zero_le _) (toNat_ofNat_le_of_le (by omega))
  · exact h.withClock (Nat.zero_le _) (Nat.zero_le _) (Nat.zero_le _) (Nat.zero_le _)

theorem State.Inv.clearBuffer (h : s.Inv) : s.clearBuffer.Inv :=
  h.withFrame (Nat.zero_le _) _ _ _ _ _

theorem State.Inv.rollback (h : s.Inv) : s.rollback.Inv := by
  have hpos := h.pos_le
  exact h.withFrame (toNat_ofNat_le_of_le (by omega)) _ _ _ _ _

theorem State.Inv.finalizeFrame (h : s.Inv) {now : Nat} (hnow : now ≤ s.lastTime) : (s.finalizeFrame now).Inv := by
  rcases s.finalizeFrame_cases now with ⟨-, e⟩ | ⟨-, e⟩ <;> rw [e]
  · exact (h.commit hnow).clearBuffer
  · exact h.clearBuffer

theorem State.Inv.appendBit (h : s.Inv) (b : Bool) (now : Nat) : (s.appendBit b now).Inv := by
  by_cases hpos : s.pos.toNat ≤ 58
  · rw [State.appendBit_of_le s b now hpos]
    exact h.withFrame (toNat_ofNat_le_of_le (by omega)) _ _ _ _ _
  · rw [State.appendBit_of_ge s b now (by omega)]
    exact h.withFrame (Nat.zero_le _) _ _ _ _ _

theorem State.Inv.rise (h : s.Inv) {t : Nat} (ht : t ≤ s.lastTime) : (s.rise t).Inv := by
  rcases s.rise_cases t with ⟨-, e⟩ | ⟨-, e⟩ | ⟨-, -, e⟩ <;> rw [e]
  · exact (h.finalizeFrame ht).setRef (by simpa using ht)
  · exact h.rollback
  · exact h.setRef ht

theorem State.Inv.onEdge (h : s.Inv) {t : Nat} (ht : t ≤ s.lastTime) (lvl : Bool) : (s.onEdge t lvl).Inv := by
  have hdriven : (s.driveIndicator lvl).Inv := h.withPorts le_rfl _ _ _
  by_cases hr : s.isRise lvl
  · rw [State.onEdge_of_rise hr]; exact hdriven.rise ht
  · rw [State.onEdge_of_fall hr, State.fall_eq]; exact hdriven.appendBit _ _

/-! ## Every operation and every step -/

/-- A timestamped operation acts on a state whose last timestamp is its own. -/
theorem State.Inv.of_timestamped {s' : State} {t : Nat} {act : State → State} (h : s.Inv)
    (hact : ∀ m : State, m.Inv → t ≤ m.lastTime → (act m).Inv) (hnext : timestamped t act s = .next s') : s'.Inv := by
  obtain ⟨hle, rfl⟩ := timestamped_next hnext
  exact hact _ (h.withPorts hle _ _ _) le_rfl

theorem State.Inv.of_exec {s' : State} {i : Instr} (h : s.Inv) (hnext : exec i s = .next s') : s'.Inv := by
  cases i with
  | nop => cases hnext; exact h
  | tick => cases hnext; exact h.advanceTick
  | edge t lvl => exact h.of_timestamped (fun _ hm ht => hm.onEdge ht lvl) hnext
  | append b now => exact h.of_timestamped (fun _ hm _ => hm.appendBit b now) hnext
  | finalize now => exact h.of_timestamped (fun _ hm hnow => hm.finalizeFrame hnow) hnext
  | readtime => cases hnext; exact h.withPorts le_rfl _ _ _
  | gettime => cases hnext; exact h.withPorts le_rfl _ _ _
  | issynced now => exact h.of_timestamped (fun _ hm _ => hm.withPorts le_rfl _ _ _) hnext

end

/-- Settles O46, by what the step consumes: nothing, an operation, or the reset input. -/
theorem everyStepKeepsTheInvariant : Obligations.EveryStepKeepsTheInvariant := by
  intro s s' h hstep
  rcases step_cases hstep with ⟨-, rfl⟩ | ⟨i, rest, -, hexec⟩ | ⟨inv, rest, -, rfl⟩
  · exact h
  · have hconsumed : (s.consume rest).Inv := h.withPorts le_rfl _ _ _
    exact hconsumed.of_exec hexec
  · exact (resetMeetsTheInvariant inv).withPorts le_rfl _ _ _

end Sys2Proof.Machine
end

section
/-! PROOFS. The cells of the buffer from `pos` on (spec/10_state.md rule R38, its item on `buf`): only a rollback can leave a 1 there. -/

namespace Sys2Proof.Machine

@[simp] theorem State.advanceTick_buf (s : State) : s.advanceTick.buf = s.buf := by
  rw [State.advanceTick_frame]

@[simp] theorem State.advanceTick_pos (s : State) : s.advanceTick.pos = s.pos := by
  rw [State.advanceTick_frame]

/-- A clean tail is a matter of the buffer and the position alone. -/
theorem State.CleanTail.congr {s s' : State} (h : s.CleanTail) (hbuf : s'.buf = s.buf) (hpos : s'.pos = s.pos) :
    s'.CleanTail := by
  unfold State.CleanTail
  rw [hbuf, hpos]
  exact h

theorem State.cleanTail_of_buf_eq_zero {s : State} (h : s.buf = 0) : s.CleanTail := by
  intro p _
  rw [h]
  exact Memory.bit_zero p

/-- FINALIZE empties the buffer whether or not it commits. -/
theorem State.finalizeFrame_cleanTail (now : Nat) (s : State) : (s.finalizeFrame now).CleanTail := by
  rcases s.finalizeFrame_cases now with ⟨-, e⟩ | ⟨-, e⟩ <;> rw [e]
  · exact State.cleanTail_of_buf_eq_zero rfl
  · exact State.cleanTail_of_buf_eq_zero rfl

/-- APPEND writes the first cell of the tail and moves the tail behind it. -/
theorem State.CleanTail.appendBit {s : State} (h : s.CleanTail) (b : Bool) (now : Nat) : (s.appendBit b now).CleanTail := by
  by_cases hle : s.pos.toNat ≤ 58
  · rw [State.appendBit_of_le s b now hle]
    intro p hp
    have hlt : s.pos.toNat < p := by
      simp only [BitVec.toNat_ofNat] at hp
      omega
    show (s.buf.write s.pos.toNat b).bit p = false
    rw [Memory.bit_write _ _ _ _ hle, if_neg (by omega)]
    exact h p hlt.le
  · rw [State.appendBit_of_ge s b now (by omega)]
    exact State.cleanTail_of_buf_eq_zero rfl

/-- Of the four cases of an EDGE, the excluded one is the spurious RISE. -/
theorem State.CleanTail.of_exec_edge {s s' : State} {t : Nat} {lvl : Bool} (h : s.CleanTail)
    (hroll : ¬ s.RollsBack (.edge t lvl)) (hnext : exec (.edge t lvl) s = .next s') : s'.CleanTail := by
  have hdriven : ((s.stamp t).driveIndicator lvl).CleanTail := h.congr rfl rfl
  rcases exec_edge_next hnext with ⟨-, ⟨-, -, rfl⟩ | ⟨hrise, hgap, -⟩ | ⟨-, -, -, rfl⟩ | ⟨-, rfl⟩⟩
  · exact (State.finalizeFrame_cleanTail t ((s.stamp t).driveIndicator lvl)).congr rfl rfl
  · exact absurd ⟨hrise, hgap⟩ hroll
  · exact hdriven.congr rfl rfl
  · exact hdriven.appendBit _ t

/-- Settles O33, operation by operation: APPEND, FINALIZE and EDGE write the buffer or the position, the other five neither. -/
theorem cellsBehindThePositionAreClear : Obligations.CellsBehindThePositionAreClear := by
  refine ⟨fun _ => State.cleanTail_of_buf_eq_zero rfl, ?_⟩
  intro i s s' h hroll hnext
  cases i with
  | nop => cases hnext; exact h
  | tick => cases hnext; exact h.congr s.advanceTick_buf s.advanceTick_pos
  | edge t lvl => exact h.of_exec_edge hroll hnext
  | append b now =>
    obtain ⟨-, rfl⟩ := timestamped_next hnext
    have hstamped : (s.stamp now).CleanTail := h.congr rfl rfl
    exact hstamped.appendBit b now
  | finalize now =>
    obtain ⟨-, rfl⟩ := timestamped_next hnext
    exact State.finalizeFrame_cleanTail now _
  | readtime => cases hnext; exact h.congr rfl rfl
  | gettime => cases hnext; exact h.congr rfl rfl
  | issynced now =>
    obtain ⟨-, rfl⟩ := timestamped_next hnext
    exact h.congr rfl rfl

end Sys2Proof.Machine
end

section
/-! PROOFS. The buffer as a number (spec/20_memory.md rule R57): a field read is the sum of its cells, the lowest address weighed least. -/

namespace Sys2Proof.Machine

theorem Memory.read_zero (m : Memory) (o : Nat) : m.read o 0 = 0 := Nat.mod_one _

/-- One more cell at the upper end of a field weighs twice as much as the cell before it. -/
theorem Memory.read_succ (m : Memory) (o w : Nat) : m.read o (w + 1) = m.read o w + (m.bit (o + w)).toNat * 2 ^ w := by
  have hcell : (m.toNat / 2 ^ o).testBit w = m.bit (o + w) := by
    rw [Nat.testBit_div_two_pow, Nat.add_comm w o]; rfl
  unfold Memory.read
  rw [Nat.mod_pow_succ, ← Nat.toNat_testBit, hcell, Nat.mul_comm]

theorem Memory.read_eq_sum (m : Memory) (o w : Nat) :
    m.read o w = ((List.range w).map fun k => (m.bit (o + k)).toNat * 2 ^ k).sum := by
  induction w with
  | zero => exact m.read_zero o
  | succ w ih => rw [Memory.read_succ, ih, List.range_succ]; simp

/-- The field of all 59 cells is the whole buffer. -/
theorem Memory.read_all (m : Memory) : m.read 0 59 = m.toNat := by
  unfold Memory.read
  rw [Nat.pow_zero, Nat.div_one, Nat.mod_eq_of_lt m.isLt]

/-- Settles O28: the buffer is the field of all its cells, and a field grows by one weighed cell at a time. -/
theorem fieldReadWeighsTheLowestAddressLeast : Obligations.FieldReadWeighsTheLowestAddressLeast := by
  intro m o w _
  have hall := m.read_eq_sum 0 59
  simp only [Memory.read_all, Nat.zero_add] at hall
  exact ⟨hall, rfl, m.read_eq_sum o w⟩

end Sys2Proof.Machine
end

section
/-! PROOFS. The commit as one unit (spec/20_memory.md rule R70): what a committing operation writes, and that no other operation writes
DecodedTime or `last_sync`. -/

namespace Sys2Proof.Machine

@[simp] theorem State.advanceTick_dt (s : State) : s.advanceTick.dt = s.dt := by
  rw [State.advanceTick_frame]

@[simp] theorem State.advanceTick_last_sync (s : State) : s.advanceTick.last_sync = s.last_sync := by
  rw [State.advanceTick_frame]

@[simp] theorem State.appendBit_dt (b : Bool) (now : Nat) (s : State) : (s.appendBit b now).dt = s.dt := by
  rw [State.appendBit_frame]

@[simp] theorem State.appendBit_last_sync (b : Bool) (now : Nat) (s : State) :
    (s.appendBit b now).last_sync = s.last_sync := by
  rw [State.appendBit_frame]

/-- A committing operation is the commit at its own timestamp and the clear, whatever becomes of `ref` and the indicator. -/
theorem exec_of_commits {i : Instr} {s s' : State} (hcommits : s.Commits i) (hnext : exec i s = .next s') :
    ∃ now ref indicator, i.timestamp = some now ∧
      s' = { (s.commit now).clearBuffer with ref := ref, indicator := indicator, lastTime := now } := by
  cases i with
  | finalize now =>
    obtain ⟨-, rfl⟩ := timestamped_next hnext
    exact ⟨now, s.ref, s.indicator, rfl, State.finalizeFrame_of_ready (s := s.stamp now) hcommits now⟩
  | edge t lvl =>
    obtain ⟨hrise, hgap, hready⟩ := hcommits
    obtain ⟨-, rfl⟩ := timestamped_next hnext
    refine ⟨t, t, some lvl, rfl, ?_⟩
    rw [State.onEdge_of_rise (s := s.stamp t) hrise, State.rise_of_sync (s := (s.stamp t).driveIndicator lvl) hgap,
      State.finalizeFrame_of_ready (s := (s.stamp t).driveIndicator lvl) hready]
    rfl
  | nop => exact hcommits.elim
  | tick => exact hcommits.elim
  | append b now => exact hcommits.elim
  | readtime => exact hcommits.elim
  | gettime => exact hcommits.elim
  | issynced now => exact hcommits.elim

/-- Only the commit inside FINALIZE writes DecodedTime and `last_sync`. -/
theorem exec_of_not_commits {i : Instr} {s s' : State} (hcommits : ¬ s.Commits i) (hnext : exec i s = .next s') :
    s'.dt = s.dt ∧ s'.last_sync = s.last_sync := by
  cases i with
  | nop => cases hnext; exact ⟨rfl, rfl⟩
  | tick => cases hnext; exact ⟨s.advanceTick_dt, s.advanceTick_last_sync⟩
  | edge t lvl =>
    rcases exec_edge_next hnext with ⟨-, ⟨hrise, hgap, rfl⟩ | ⟨-, -, rfl⟩ | ⟨-, -, -, rfl⟩ | ⟨-, rfl⟩⟩
    · have hready : ¬ s.FrameReady := fun hready => hcommits ⟨hrise, hgap, hready⟩
      rw [State.finalizeFrame_of_not_ready (s := (s.stamp t).driveIndicator lvl) hready]
      exact ⟨rfl, rfl⟩
    · exact ⟨rfl, rfl⟩
    · exact ⟨rfl, rfl⟩
    · exact ⟨State.appendBit_dt _ _ _, State.appendBit_last_sync _ _ _⟩
  | append b now =>
    obtain ⟨-, rfl⟩ := timestamped_next hnext
    exact ⟨State.appendBit_dt _ _ _, State.appendBit_last_sync _ _ _⟩
  | finalize now =>
    obtain ⟨-, rfl⟩ := timestamped_next hnext
    rw [State.finalizeFrame_of_not_ready (s := s.stamp now) hcommits]
    exact ⟨rfl, rfl⟩
  | readtime => cases hnext; exact ⟨rfl, rfl⟩
  | gettime => cases hnext; exact ⟨rfl, rfl⟩
  | issynced now => obtain ⟨-, rfl⟩ := timestamped_next hnext; exact ⟨rfl, rfl⟩

/-- Settles O26: a committing operation is one commit and the clear, and no other operation commits. -/
theorem decodedTimeIsReplacedAsOneUnit : Obligations.DecodedTimeIsReplacedAsOneUnit := by
  intro i s s' hnext
  refine ⟨fun hcommits => ?_, fun hcommits => exec_of_not_commits hcommits hnext⟩
  obtain ⟨now, ref, indicator, htimestamp, rfl⟩ := exec_of_commits hcommits hnext
  exact ⟨rfl, htimestamp, rfl, rfl, rfl, rfl, rfl, rfl⟩

end Sys2Proof.Machine
end

section
/-! PROOFS. TICK and the other operations (spec/20_memory.md rule R67): TICK's work depends on the clock registers alone, and an operation
that neither commits nor shows the clock does the same whatever the clock holds, so the two orders agree. -/

namespace Sys2Proof.Machine

/-! ## The clock as the part of the state TICK works on -/

/-- `s` with the clock registers of `c`. -/
def State.withClockOf (s c : State) : State :=
  { s with tick := c.tick, ss := c.ss, mm := c.mm, hh := c.hh }

theorem State.advanceTick_eq_withClockOf (s : State) : s.advanceTick = s.withClockOf s.advanceTick :=
  s.advanceTick_frame

/-- TICK reads nothing but the clock. -/
theorem State.advanceTick_withClockOf (s c : State) : (s.withClockOf c).advanceTick = s.withClockOf c.advanceTick := by
  unfold State.advanceTick State.carrySecond State.carryMinute State.carryHour State.withClockOf
  split_ifs <;> rfl

/-- Below the last tick of a second TICK carries into nothing. -/
theorem State.advanceTick_of_lt {s : State} (h : s.tick.toNat < 999) :
    s.advanceTick = { s with tick := BitVec.ofNat 10 (s.tick.toNat + 1) } := by
  have hcarry : ¬ 1000 ≤ s.tick.toNat + 1 := by omega
  rcases s.advanceTick_cases with ⟨-, e⟩ | ⟨h', -⟩ | ⟨h', -⟩ | ⟨h', -⟩ | ⟨h', -⟩
  · exact e
  all_goals exact absurd h' hcarry

/-- `act` on `s` neither reads nor writes the clock. -/
def State.IgnoresClock (s : State) (act : State → State) : Prop :=
  ∀ c, act (s.withClockOf c) = (act s).withClockOf c

/-- What ignores the clock commutes with TICK. -/
theorem State.IgnoresClock.advanceTick {s : State} {act : State → State} (h : s.IgnoresClock act) :
    act s.advanceTick = (act s).advanceTick := by
  have hkeeps : act s = (act s).withClockOf s := h s
  calc act s.advanceTick
      = act (s.withClockOf s.advanceTick) := by rw [← State.advanceTick_eq_withClockOf]
    _ = (act s).withClockOf s.advanceTick := h _
    _ = ((act s).withClockOf s).advanceTick := (State.advanceTick_withClockOf _ _).symm
    _ = (act s).advanceTick := by rw [← hkeeps]

/-! ## What ignores the clock -/

theorem State.ignoresClock_appendBit (s : State) (b : Bool) (now : Nat) : s.IgnoresClock (State.appendBit b now) := by
  intro c
  by_cases h : s.pos.toNat ≤ 58
  · rw [State.appendBit_of_le s b now h, State.appendBit_of_le (s.withClockOf c) b now h]
    rfl
  · rw [State.appendBit_of_ge s b now (by omega), State.appendBit_of_ge (s.withClockOf c) b now (Nat.lt_of_not_le h)]
    rfl

theorem State.ignoresClock_finalizeFrame {s : State} (h : ¬ s.FrameReady) (now : Nat) :
    s.IgnoresClock (State.finalizeFrame now) := by
  intro c
  rw [State.finalizeFrame_of_not_ready h, State.finalizeFrame_of_not_ready (s := s.withClockOf c) h]
  rfl

theorem State.ignoresClock_rise {s : State} {t : Nat} (h : ¬ (1200 < t - s.ref ∧ s.FrameReady)) :
    s.IgnoresClock (State.rise t) := by
  intro c
  rcases s.rise_cases t with ⟨hgap, e⟩ | ⟨hgap, e⟩ | ⟨hlow, hhigh, e⟩ <;> rw [e]
  · have hready : ¬ s.FrameReady := fun hready => h ⟨hgap, hready⟩
    rw [State.rise_of_sync (s := s.withClockOf c) hgap, State.ignoresClock_finalizeFrame hready t c]
    rfl
  · rw [State.rise_of_spurious (s := s.withClockOf c) hgap]
    rfl
  · rw [State.rise_of_accepted (s := s.withClockOf c) hlow hhigh]
    rfl

theorem State.ignoresClock_onEdge {s : State} {t : Nat} {lvl : Bool} (h : ¬ s.Commits (.edge t lvl)) :
    s.IgnoresClock (State.onEdge t lvl) := by
  intro c
  by_cases hrise : s.isRise lvl
  · have hquiet : ¬ (1200 < t - s.ref ∧ s.FrameReady) := fun hcommits => h ⟨hrise, hcommits⟩
    rw [State.onEdge_of_rise hrise, State.onEdge_of_rise (s := s.withClockOf c) hrise]
    exact State.ignoresClock_rise (s := s.driveIndicator lvl) hquiet c
  · rw [State.onEdge_of_fall hrise, State.onEdge_of_fall (s := s.withClockOf c) hrise, State.fall_eq, State.fall_eq]
    exact State.ignoresClock_appendBit (s.driveIndicator lvl) _ t c

/-! ## The two orders -/

theorem exec_tick (s : State) : exec .tick s = .next s.advanceTick := rfl

theorem tick_commutes_of_next {i : Instr} {s m : State} (hlate : exec i s = .next m)
    (hearly : exec i s.advanceTick = .next m.advanceTick) : execAll [.tick, i] s = execAll [i, .tick] s := by
  rw [execAll_cons_of_next (exec_tick s), execAll_cons_of_next hearly, execAll_cons_of_next hlate,
    execAll_cons_of_next (exec_tick m)]

/-- A timestamped operation is refused in both orders, or acts on a clock it does not look at. -/
theorem tick_commutes_of_timestamped {i : Instr} {t : Nat} {act : State → State} {s : State}
    (hexec : ∀ m, exec i m = timestamped t act m) (hignores : (s.stamp t).IgnoresClock act) :
    execAll [.tick, i] s = execAll [i, .tick] s := by
  by_cases hle : s.lastTime ≤ t
  · refine tick_commutes_of_next ((hexec s).trans (timestamped_of_le act hle)) ?_
    have hstamp : s.advanceTick.stamp t = (s.stamp t).advanceTick :=
      State.IgnoresClock.advanceTick (act := State.stamp t) fun _ => rfl
    rw [hexec, timestamped_of_le act (by simpa using hle), hstamp, hignores.advanceTick]
  · have hlt : t < s.lastTime := Nat.lt_of_not_le hle
    have hlate : exec i s = .refused .timestampDecreased := (hexec s).trans (timestamped_of_lt act hlt)
    have hearly : exec i s.advanceTick = .refused .timestampDecreased :=
      (hexec _).trans (timestamped_of_lt act (by simpa using hlt))
    rw [execAll_cons_of_refused hlate, execAll_cons_of_next (exec_tick s), execAll_cons_of_refused hearly]

/-- A query without a timestamp commutes with TICK when TICK leaves its record alone. -/
theorem tick_commutes_of_query {i : Instr} {s : State} {record : State → Result}
    (hexec : ∀ m, exec i m = .next (m.returnResult (record m))) (hrecord : record s.advanceTick = record s) :
    execAll [.tick, i] s = execAll [i, .tick] s := by
  refine tick_commutes_of_next (hexec s) ?_
  rw [hexec, hrecord]
  exact congrArg _ (State.IgnoresClock.advanceTick (act := State.returnResult (record s)) fun _ => rfl)

/-- Settles O47, operation by operation: the timestamped ones ignore the clock, and the two that show it show no register that a TICK
without a carry writes. -/
theorem tickCommutesUnlessClockIsSharedAtOnce : Obligations.TickCommutesUnlessClockIsSharedAtOnce := by
  intro i s hne hcommits hclock
  cases i with
  | tick => exact absurd rfl hne
  | nop => exact tick_commutes_of_next rfl rfl
  | edge t lvl => exact tick_commutes_of_timestamped (fun _ => rfl) (State.ignoresClock_onEdge (s := s.stamp t) hcommits)
  | append b now => exact tick_commutes_of_timestamped (fun _ => rfl) (State.ignoresClock_appendBit _ b now)
  | finalize now =>
    exact tick_commutes_of_timestamped (fun _ => rfl) (State.ignoresClock_finalizeFrame (s := s.stamp now) hcommits now)
  | issynced now =>
    exact tick_commutes_of_timestamped (act := fun m => m.returnResult (.issynced (m.synced now))) (fun _ => rfl) fun _ => rfl
  | readtime =>
    refine tick_commutes_of_query (record := fun m => .readtime m.hh m.mm m.ss) (fun _ => rfl) ?_
    rw [State.advanceTick_of_lt (hclock (.inl rfl))]
  | gettime =>
    refine tick_commutes_of_query
      (record := fun m => .gettime m.ss m.mm m.hh m.dt.day m.dt.month m.dt.year) (fun _ => rfl) ?_
    rw [State.advanceTick_of_lt (hclock (.inr rfl))]

end Sys2Proof.Machine
end

section
/-! PROOFS. The encoding (spec/30_encoding.md rules R94 to R98): a word is its three fields, each operation code decodes to its operation,
and from that the round trip, the opcode table and the numbers that are no event word. -/

namespace Sys2Proof

/-! ## A word and its fields -/

@[simp] theorem eventWord_getElem_35 (op : BitVec 3) (lvl : Bool) (ts : BitVec 32) :
    (eventWord op lvl ts)[35] = op[2] := eventWord_getLsbD op lvl ts 35

@[simp] theorem eventWord_getElem_34 (op : BitVec 3) (lvl : Bool) (ts : BitVec 32) :
    (eventWord op lvl ts)[34] = op[1] := eventWord_getLsbD op lvl ts 34

@[simp] theorem eventWord_getElem_33 (op : BitVec 3) (lvl : Bool) (ts : BitVec 32) :
    (eventWord op lvl ts)[33] = op[0] := eventWord_getLsbD op lvl ts 33

/-- The three fields are all of a word. -/
theorem eventWord_of_fields (w : EventWord) : w = eventWord (w.extractLsb' 33 3) w.lvl w.ts := by
  apply BitVec.eq_of_getLsbD_eq
  intro k hk
  rw [eventWord_getLsbD]
  by_cases hts : k < 32
  · simp [hts, EventWord.ts]
  by_cases hlvl : k = 32
  · simp [hlvl, EventWord.lvl]
  · have hcode : k - 33 < 3 := by omega
    have hbit : 33 + (k - 33) = k := by omega
    simp [hts, hlvl, hcode, hbit]

theorem exists_eq_eventWord (w : EventWord) : ∃ op lvl ts, w = eventWord op lvl ts :=
  ⟨_, _, _, eventWord_of_fields w⟩

/-- The eight operation codes are all the values of the op field (rule R96). -/
theorem opcode_cases : ∀ op : BitVec 3,
    op = 0b000 ∨ op = 0b001 ∨ op = 0b010 ∨ op = 0b011 ∨ op = 0b100 ∨ op = 0b101 ∨ op = 0b110 ∨ op = 0b111 := by
  decide

/-! ## The decoder, by operation code (rule R95) -/

section
variable (lvl : Bool) (ts : BitVec 32)

@[simp] theorem decode_nop : decode (eventWord 0#3 lvl ts) = .nop := by simp [decode]
@[simp] theorem decode_tick : decode (eventWord 1#3 lvl ts) = .tick := by simp [decode]
@[simp] theorem decode_edge : decode (eventWord 2#3 lvl ts) = .edge ts.toNat lvl := by simp [decode]
@[simp] theorem decode_append : decode (eventWord 3#3 lvl ts) = .append lvl ts.toNat := by simp [decode]
@[simp] theorem decode_finalize : decode (eventWord 4#3 lvl ts) = .finalize ts.toNat := by simp [decode]
@[simp] theorem decode_readtime : decode (eventWord 5#3 lvl ts) = .readtime := by simp [decode]
@[simp] theorem decode_gettime : decode (eventWord 6#3 lvl ts) = .gettime := by simp [decode]
@[simp] theorem decode_issynced : decode (eventWord 7#3 lvl ts) = .issynced ts.toNat := by simp [decode]

end

/-! ## The round trip -/

/-- A timestamp that fits is read back from the `ts` field (rule R98). -/
theorem toNat_ofNat_of_timestampFits {t : Nat} (h : timestampFits t = true) : (BitVec.ofNat 32 t).toNat = t :=
  (BitVec.toNat_ofNat t 32).trans (Nat.mod_eq_of_lt (of_decide_eq_true h))

theorem timestampFits_toNat (ts : BitVec 32) : timestampFits ts.toNat = true := decide_eq_true ts.isLt

/-- Settles O1, operation by operation: each code decodes to its operation, and a timestamp that fits survives its field. -/
theorem decodeOfEncodeIsTheInstruction : Obligations.DecodeOfEncodeIsTheInstruction := by
  intro i hwf
  cases i with
  | nop => exact decode_nop _ _
  | tick => exact decode_tick _ _
  | edge t lvl => exact (decode_edge _ _).trans (by rw [toNat_ofNat_of_timestampFits hwf])
  | append b now => exact (decode_append _ _).trans (by rw [toNat_ofNat_of_timestampFits hwf])
  | finalize now => exact (decode_finalize _ _).trans (by rw [toNat_ofNat_of_timestampFits hwf])
  | readtime => exact decode_readtime _ _
  | gettime => exact decode_gettime _ _
  | issynced now => exact (decode_issynced _ _).trans (by rw [toNat_ofNat_of_timestampFits hwf])

/-! ## Every word -/

/-- The canonical word has zeros in the fields its operation does not use (rule R96). -/
theorem encode_unused_fields (i : Instr) :
    (i.timestamp = none → (encode i).lvl = false ∧ (encode i).ts = 0) ∧
    (∀ now, i = .finalize now ∨ i = .issynced now → (encode i).lvl = false) := by
  cases i <;> simp [encode, Instr.timestamp]

theorem mask_of_mem_opcodeTable : ∀ r ∈ opcodeTable, r.mask = eventWord 0b111 false 0 := by decide

/-- Settles O2. -/
theorem everyEventWordDecodesByItsCode : Obligations.EveryEventWordDecodesByItsCode :=
  ⟨exists_eq_eventWord,
    fun lvl ts => ⟨decode_nop lvl ts, decode_tick lvl ts, decode_edge lvl ts, decode_append lvl ts, decode_finalize lvl ts,
      decode_readtime lvl ts, decode_gettime lvl ts, decode_issynced lvl ts⟩,
    encode_unused_fields, mask_of_mem_opcodeTable⟩

/-! ## The opcode table -/

/-- The mnemonic depends on the operation code alone. -/
theorem mnemonic_decode_eventWord (op : BitVec 3) (lvl : Bool) (ts : BitVec 32) :
    (decode (eventWord op lvl ts)).mnemonic = (decode (eventWord op false 0)).mnemonic := by
  rcases opcode_cases op with rfl | rfl | rfl | rfl | rfl | rfl | rfl | rfl <;> simp [Instr.mnemonic]

/-- Among the eight words with nothing but a code, each row's pattern is the one with the row's mnemonic. -/
theorem code_eq_pattern_iff : ∀ r ∈ opcodeTable, ∀ op : BitVec 3,
    eventWord op false 0 = r.pattern ↔ (decode (eventWord op false 0)).mnemonic = r.mnemonic := by
  decide

/-- Settles O3: the mask leaves the operation code, and the eight codes and rows are compared one by one. -/
theorem opcodeTableRowsPartitionTheWords : Obligations.OpcodeTableRowsPartitionTheWords := by
  intro w r hr
  obtain ⟨op, lvl, ts, rfl⟩ := exists_eq_eventWord w
  have hmasked : eventWord op lvl ts &&& r.mask = eventWord op false 0 := by
    rw [mask_of_mem_opcodeTable r hr]
    exact Laws.eventWord_and_mask op lvl ts
  rw [hmasked, mnemonic_decode_eventWord]
  exact code_eq_pattern_iff r hr op

/-! ## Canonical words and non-words -/

/-- The 32-bit field holds no timestamp that does not fit, so every word's operation has a word (rule R98). -/
theorem wf_decode (w : EventWord) : (decode w).wf = true := by
  obtain ⟨op, lvl, ts, rfl⟩ := exists_eq_eventWord w
  rcases opcode_cases op with rfl | rfl | rfl | rfl | rfl | rfl | rfl | rfl <;>
    simp [Instr.wf, timestampFits_toNat]

theorem decodeNumber_eq_error_iff (n : Nat) : decodeNumber n = .error .widerThanEventWord ↔ 2 ^ 36 ≤ n := by
  unfold decodeNumber
  split
  case isTrue h => exact iff_of_false nofun (Nat.not_le.2 h)
  case isFalse h => exact iff_of_true rfl (Nat.not_lt.1 h)

theorem decodeNumber_toNat (w : EventWord) : decodeNumber w.toNat = .ok (decode w) := by
  rw [decodeNumber, if_pos w.isLt, BitVec.ofNat_toNat, BitVec.setWidth_eq]

/-- Settles O4: what a word decodes to is well-formed, so the round trip applies to it. -/
theorem canonicalWordsAndNonWords : Obligations.CanonicalWordsAndNonWords :=
  ⟨fun w => ⟨wf_decode w, decodeOfEncodeIsTheInstruction _ (wf_decode w)⟩, decodeNumber_eq_error_iff, decodeNumber_toNat⟩

end Sys2Proof
end

section
/-! PROOFS. The input port (spec/30_encoding.md rule R94, spec/60_exceptions.md rule R193): one step consumes one entry. -/

namespace Sys2Proof.Machine

section
variable {s : State}

theorem step_of_nil (h : s.inputs = []) : step s = .next s := by rw [step, h]

variable {rest : List Input}

theorem step_of_word {w : EventWord} (h : s.inputs = .word w :: rest) :
    step s = exec (decode w) { s with inputs := rest } := by
  rw [step, h]; rfl

theorem step_of_operation {i : Instr} (h : s.inputs = .operation i :: rest) :
    step s = exec i { s with inputs := rest } := by
  rw [step, h]; rfl

theorem step_of_reset {inv : Bool} (h : s.inputs = .reset inv :: rest) :
    step s = .next { State.resetWith inv with inputs := rest, results := s.results } := by
  rw [step, h]; rfl

end

/-- Settles O6, by the head of the port. -/
theorem stepRunsTheNextInput : Obligations.StepRunsTheNextInput := fun _ _ =>
  ⟨fun _ => step_of_word, fun _ => step_of_operation, fun _ => step_of_reset, step_of_nil⟩

/-- The low 40 bits of an event word's number are that word. -/
theorem State.withFetchWord_toNat (s : State) (w : EventWord) :
    s.withFetchWord 40 w.toNat = { s with inputs := .word w :: s.inputs } := by
  have hlt : w.toNat < 2 ^ 40 := w.isLt.trans (by decide)
  rw [State.withFetchWord, Nat.mod_eq_of_lt hlt, State.offerWord, BitVec.ofNat_toNat, BitVec.setWidth_eq]

/-- Settles O7: the step takes the word off the port again, and the word decodes to its operation. -/
theorem offeredWordIsRunByTheNextStep : Obligations.OfferedWordIsRunByTheNextStep := by
  intro i s hwf
  rw [State.withFetchWord_toNat, step_of_word rfl, decodeOfEncodeIsTheInstruction i hwf]

end Sys2Proof.Machine
end

section
/-! PROOFS. The two polarities (spec/30_encoding.md rule R87): nothing behind the logical level of an EDGE reads `INVERTED` or the indicator. -/

namespace Sys2Proof.Machine

/-- `s` under the other polarity, with `shown` on the indicator. -/
def State.inOtherPolarity (s : State) (shown : Option Bool) : State :=
  { s with inverted := !s.inverted, indicator := shown }

/-- The inverted raw level under the other polarity is the same logical level. -/
theorem State.isRise_inOtherPolarity (s : State) (shown : Option Bool) (lvl : Bool) :
    (s.inOtherPolarity shown).isRise (!lvl) ↔ s.isRise lvl := by
  simp [State.isRise, State.inOtherPolarity]

theorem State.appendBit_inOtherPolarity (s : State) (shown : Option Bool) (b : Bool) (now : Nat) :
    (s.inOtherPolarity shown).appendBit b now = (s.appendBit b now).inOtherPolarity shown := by
  by_cases h : s.pos.toNat ≤ 58
  · rw [State.appendBit_of_le s b now h, State.appendBit_of_le (s.inOtherPolarity shown) b now h]
    rfl
  · rw [State.appendBit_of_ge s b now (by omega), State.appendBit_of_ge (s.inOtherPolarity shown) b now (Nat.lt_of_not_le h)]
    rfl

theorem State.finalizeFrame_inOtherPolarity (s : State) (shown : Option Bool) (now : Nat) :
    (s.inOtherPolarity shown).finalizeFrame now = (s.finalizeFrame now).inOtherPolarity shown := by
  rcases s.finalizeFrame_cases now with ⟨h, e⟩ | ⟨h, e⟩
  · rw [e, State.finalizeFrame_of_ready (s := s.inOtherPolarity shown) h]; rfl
  · rw [e, State.finalizeFrame_of_not_ready (s := s.inOtherPolarity shown) h]; rfl

theorem State.rise_inOtherPolarity (s : State) (shown : Option Bool) (t : Nat) :
    (s.inOtherPolarity shown).rise t = (s.rise t).inOtherPolarity shown := by
  rcases s.rise_cases t with ⟨h, e⟩ | ⟨h, e⟩ | ⟨hlow, hhigh, e⟩
  · rw [e, State.rise_of_sync (s := s.inOtherPolarity shown) h, State.finalizeFrame_inOtherPolarity]; rfl
  · rw [e, State.rise_of_spurious (s := s.inOtherPolarity shown) h]; rfl
  · rw [e, State.rise_of_accepted (s := s.inOtherPolarity shown) hlow hhigh]; rfl

theorem State.driveIndicator_inOtherPolarity (s : State) (shown : Option Bool) (lvl : Bool) :
    (s.inOtherPolarity shown).driveIndicator (!lvl) = (s.driveIndicator lvl).inOtherPolarity (some !lvl) := rfl

theorem State.onEdge_inOtherPolarity (s : State) (shown : Option Bool) (t : Nat) (lvl : Bool) :
    (s.inOtherPolarity shown).onEdge t (!lvl) = (s.onEdge t lvl).inOtherPolarity (some !lvl) := by
  have hlevel := s.isRise_inOtherPolarity shown lvl
  by_cases h : s.isRise lvl
  · rw [State.onEdge_of_rise h, State.onEdge_of_rise (hlevel.2 h), State.driveIndicator_inOtherPolarity,
      State.rise_inOtherPolarity]
  · rw [State.onEdge_of_fall h, State.onEdge_of_fall (mt hlevel.1 h), State.driveIndicator_inOtherPolarity,
      State.fall_eq, State.fall_eq, State.appendBit_inOtherPolarity]
    rfl

/-- Settles O18: EDGE's work commutes with the change of polarity. -/
theorem polarityOnlyRenamesTheLevels : Obligations.PolarityOnlyRenamesTheLevels := by
  intro s t lvl hle
  refine ⟨_, exec_edge lvl hle, ?_⟩
  have hother : exec (.edge t (!lvl)) (s.inOtherPolarity s.indicator) = _ := exec_edge (!lvl) hle
  exact hother.trans (congrArg _ ((s.stamp t).onEdge_inOtherPolarity s.indicator t lvl))

end Sys2Proof.Machine
end

section
/-! PROOFS. A frame taken in bit by bit (spec/42_frame_decoder.md rules R80, R148): APPEND keeps the parity flags in step with the buffer, so
the 59 bits of a frame leave the frame in the buffer and make it acceptable exactly when it is balanced. -/

namespace Sys2Proof.Machine

/-! ## The parity flags -/

/-- At position 0 the flags claim nothing. -/
theorem State.parityTracksBuffer_of_pos_eq_zero {s : State} (h : s.pos = 0) : s.ParityTracksBuffer := by
  constructor <;> simp [h]

section
variable {s : State} (b : Bool) (now : Nat)

theorem State.appendBit_pos_toNat (h : s.pos.toNat ≤ 58) : (s.appendBit b now).pos.toNat = s.pos.toNat + 1 := by
  rw [State.appendBit_of_le s b now h]
  exact (BitVec.toNat_ofNat _ _).trans (Nat.mod_eq_of_lt (by omega))

theorem State.appendBit_bit (h : s.pos.toNat ≤ 58) (p : Nat) :
    (s.appendBit b now).buf.bit p = if p = s.pos.toNat then b else s.buf.bit p := by
  rw [State.appendBit_of_le s b now h]
  exact Memory.bit_write _ _ _ _ h

/-- A field that ends at or before the position keeps its parity. -/
theorem State.appendBit_parity (h : s.pos.toNat ≤ 58) {o w : Nat} (hfield : o + w ≤ s.pos.toNat) :
    (s.appendBit b now).buf.parity o w = s.buf.parity o w := by
  rw [State.appendBit_of_le s b now h]
  exact Memory.parity_write_of_out _ _ _ _ _ h (.inr hfield)

/-- Inside a field the running parity, started afresh at the field's first cell, takes in the cell just written. -/
theorem State.appendBit_par_run {o : Nat} (hstart : o = 21 ∨ o = 29 ∨ o = 36) (ho : o ≤ s.pos.toNat) (h : s.pos.toNat ≤ 58)
    (hinside : o < s.pos.toNat →
      s.par_run = s.buf.parity o (s.pos.toNat - o) ∧ ¬ (s.pos.toNat = 21 ∨ s.pos.toNat = 29 ∨ s.pos.toNat = 36)) :
    (s.appendBit b now).par_run = (s.appendBit b now).buf.parity o (s.pos.toNat + 1 - o) := by
  obtain ⟨w, hw⟩ := Nat.exists_eq_add_of_le ho
  have hlength : s.pos.toNat + 1 - o = w + 1 := by omega
  have hnext : (s.buf.write s.pos.toNat b).parity o (w + 1) = (s.buf.parity o w ^^ b) := by
    rw [hw]
    exact Memory.parity_write_next _ _ _ _ (by omega)
  rw [State.appendBit_of_le s b now h, hlength]
  refine Eq.trans ?_ hnext.symm
  rcases Nat.eq_or_lt_of_le ho with hfirst | hlater
  · have hw0 : w = 0 := by omega
    simp [← hfirst, hstart, hw0]
  · obtain ⟨hrun, hbound⟩ := hinside hlater
    have hsofar : s.pos.toNat - o = w := by omega
    simp [hbound, hrun, hsofar]

end

/-- APPEND keeps the flags in step with the buffer: the running parity in each field, and each saved parity from its field's end on. -/
theorem State.ParityTracksBuffer.appendBit {s : State} (h : s.ParityTracksBuffer) (b : Bool) (now : Nat) :
    (s.appendBit b now).ParityTracksBuffer := by
  by_cases hle : s.pos.toNat ≤ 58
  · have hpos := State.appendBit_pos_toNat b now hle
    constructor <;> rw [hpos]
    case in_minute =>
      exact fun _ _ => State.appendBit_par_run b now (.inl rfl) (by omega) hle fun hlater =>
        ⟨h.in_minute hlater (by omega), by omega⟩
    case in_hour =>
      exact fun _ _ => State.appendBit_par_run b now (.inr (.inl rfl)) (by omega) hle fun hlater =>
        ⟨h.in_hour hlater (by omega), by omega⟩
    case in_date =>
      exact fun _ _ => State.appendBit_par_run b now (.inr (.inr rfl)) (by omega) hle fun hlater =>
        ⟨h.in_date hlater (by omega), by omega⟩
    case minute_saved =>
      intro _
      rw [State.appendBit_parity b now hle (by omega), State.appendBit_of_le s b now hle]
      by_cases hend : s.pos.toNat = 28
      · simpa [hend] using h.in_minute (by omega) (by omega)
      · simpa [hend] using h.minute_saved (by omega)
    case hour_saved =>
      intro _
      rw [State.appendBit_parity b now hle (by omega), State.appendBit_of_le s b now hle]
      by_cases hend : s.pos.toNat = 35
      · simpa [hend] using h.in_hour (by omega) (by omega)
      · simpa [hend] using h.hour_saved (by omega)
    case date_saved =>
      intro _
      have hend : s.pos.toNat = 58 := by omega
      rw [State.appendBit_parity b now hle (by omega), State.appendBit_of_le s b now hle]
      simpa [hend] using h.in_date (by omega) (by omega)
  · rw [State.appendBit_of_ge s b now (by omega)]
    exact State.parityTracksBuffer_of_pos_eq_zero rfl

/-! ## The first bits of a frame -/

/-- The first `k` bits of the frame `B` are in the buffer, and the flags hold their parities. -/
structure State.HoldsBits (s : State) (B : Memory) (k : Nat) : Prop where
  pos_eq : s.pos.toNat = k
  bit_eq : ∀ p, p < k → s.buf.bit p = B.bit p
  parity : s.ParityTracksBuffer

theorem State.holdsBits_zero {s : State} (h : s.pos = 0) (B : Memory) : s.HoldsBits B 0 where
  pos_eq := congrArg BitVec.toNat h
  bit_eq p hp := absurd hp p.not_lt_zero
  parity := State.parityTracksBuffer_of_pos_eq_zero h

/-- Only the buffer, the position and the flags matter. -/
theorem State.HoldsBits.congr {s s' : State} {B : Memory} {k : Nat} (h : s.HoldsBits B k)
    (e : s' = { s with ref := s'.ref, indicator := s'.indicator, lastTime := s'.lastTime }) : s'.HoldsBits B k := by
  rw [e]
  exact ⟨h.pos_eq, h.bit_eq, ⟨h.parity.in_minute, h.parity.in_hour, h.parity.in_date, h.parity.minute_saved,
    h.parity.hour_saved, h.parity.date_saved⟩⟩

theorem State.HoldsBits.appendBit {s : State} {B : Memory} {k : Nat} (h : s.HoldsBits B k) (hk : k < 59) (now : Nat) :
    (s.appendBit (B.bit k) now).HoldsBits B (k + 1) := by
  have hle : s.pos.toNat ≤ 58 := by rw [h.pos_eq]; omega
  refine ⟨by rw [State.appendBit_pos_toNat _ _ hle, h.pos_eq], fun p hp => ?_, h.parity.appendBit _ _⟩
  rw [State.appendBit_bit _ _ hle, h.pos_eq]
  split
  case isTrue heq => rw [heq]
  case isFalse hne => exact h.bit_eq p (by omega)

section
variable {s : State} {B : Memory} (h : s.HoldsBits B 59)
include h

theorem State.HoldsBits.buf_eq : s.buf = B := Memory.ext_bit h.bit_eq

/-- A whole frame is accepted exactly when it is balanced (rules R80, R151). -/
theorem State.HoldsBits.frameReady_iff : s.FrameReady ↔ B.Balanced := by
  have hpos := h.pos_eq
  have hmin := h.parity.minute_saved (by omega)
  have hhour := h.parity.hour_saved (by omega)
  have hdate := h.parity.date_saved (by omega)
  rw [State.FrameReady, Memory.Balanced, hmin, hhour, hdate, h.buf_eq]
  constructor
  · rintro ⟨-, e28, e35, e58⟩
    exact ⟨e28.symm, e35.symm, e58.symm⟩
  · rintro ⟨e28, e35, e58⟩
    exact ⟨hpos, e28.symm, e35.symm, e58.symm⟩

end

end Sys2Proof.Machine
end

section
/-! PROOFS. A frame on the line (spec/30_encoding.md rules R84, R86, R102): 59 pulses, one a second, put the frame's bits into the buffer and touch
nothing else, and the marker's RISE then finalizes it. -/

namespace Sys2Proof.Machine

/-! ## What receiving bits leaves alone -/

/-- `s` with everything blanked that an edge without a commit writes: `ref`, the buffer, the position, the parity flags, the indicator
and the last timestamp. -/
def State.besidesReception (s : State) : State :=
  { s with
    ref := 0, buf := 0, pos := 0, par_run := false, par_min := false, par_hour := false, par_date := false,
    indicator := none, lastTime := 0 }

theorem State.besidesReception_eq_iff (m s : State) : m.besidesReception = s.besidesReception ↔
    m.inverted = s.inverted ∧ m.tick = s.tick ∧ m.ss = s.ss ∧ m.mm = s.mm ∧ m.hh = s.hh ∧ m.dt = s.dt ∧
    m.last_sync = s.last_sync ∧ m.results = s.results ∧ m.inputs = s.inputs := by
  simp only [State.besidesReception, State.mk.injEq, true_and]
  tauto

theorem State.inverted_of_besidesReception {m s : State} (h : m.besidesReception = s.besidesReception) :
    m.inverted = s.inverted := ((State.besidesReception_eq_iff m s).1 h).1

theorem State.besidesReception_appendBit (s : State) (b : Bool) (now : Nat) :
    (s.appendBit b now).besidesReception = s.besidesReception := by
  rw [State.appendBit_frame]; rfl

/-! ## One edge -/

theorem State.isRise_not_inverted (s : State) : s.isRise (true ^^ s.inverted) := by
  simp [State.isRise]

theorem exec_riseAt {s : State} {t : Nat} (hle : s.lastTime ≤ t) :
    exec (riseAt s.inverted t) s = .next (((s.stamp t).driveIndicator (true ^^ s.inverted)).rise t) := by
  rw [riseAt, exec_edge _ hle, State.onEdge_of_rise (s := s.stamp t) s.isRise_not_inverted]

theorem exec_fallAt {s : State} {t : Nat} (hle : s.lastTime ≤ t) :
    exec (fallAt s.inverted t) s =
      .next (((s.stamp t).driveIndicator (false ^^ s.inverted)).appendBit (decide (140 ≤ t - s.ref)) t) := by
  have hfall : ¬ s.isRise (false ^^ s.inverted) := by simp [State.isRise]
  rw [fallAt, exec_edge _ hle, State.onEdge_of_fall (s := s.stamp t) hfall, State.fall_eq]
  rfl

/-- A pulse that transmits `B` in second `k` is read as the bit `k` of `B` (rules R84, R127). -/
theorem Transmits.bit_eq {width : Nat → Nat} {B : Memory} (h : Transmits width B) {k : Nat} (hk : k < 59) :
    decide (140 ≤ width k) = B.bit k := by
  obtain ⟨hzero, -⟩ := h k hk
  cases hb : B.bit k
  · have := hzero.2 hb
    exact decide_eq_false (by omega)
  · have : ¬ width k < 140 := fun hlt => by simp [hzero.1 hlt] at hb
    exact decide_eq_true (by omega)

/-! ## The seconds of a frame -/

/-- After a RISE that starts a second at `t`: `k` bits of `B` are held, and what receiving bits leaves alone is as in `s`. -/
structure State.StartsSecond (m s : State) (B : Memory) (k t : Nat) : Prop where
  holds : m.HoldsBits B k
  ref_eq : m.ref = t
  lastTime_eq : m.lastTime = t
  besides : m.besidesReception = s.besidesReception

/-- After the pulse of a second that started at `t`: `k` bits of `B` are held. -/
structure State.EndsPulse (m s : State) (B : Memory) (k t : Nat) : Prop where
  holds : m.HoldsBits B k
  ref_eq : m.ref = t
  lastTime_le : m.lastTime ≤ t + 1000
  besides : m.besidesReception = s.besidesReception

/-- The FALL of a pulse appends the frame's next bit. -/
theorem State.StartsSecond.exec_fallAt {m s : State} {B : Memory} {k t w : Nat} (h : m.StartsSecond s B k t)
    (hk : k < 59) (hbit : decide (140 ≤ w) = B.bit k) (hw : w ≤ 1000) :
    ∃ m', exec (fallAt s.inverted (t + w)) m = .next m' ∧ m'.EndsPulse s B (k + 1) t := by
  obtain ⟨hholds, href, htime, hbesides⟩ := h
  rw [← State.inverted_of_besidesReception hbesides]
  refine ⟨_, Machine.exec_fallAt (by omega), ?_⟩
  rw [href, Nat.add_sub_cancel_left, hbit]
  have hdriven : ((m.stamp (t + w)).driveIndicator (false ^^ m.inverted)).HoldsBits B k := hholds.congr rfl
  refine ⟨hdriven.appendBit hk _, ?_, ?_, ?_⟩
  · rw [State.appendBit_frame]; exact href
  · rw [State.appendBit_lastTime]; exact Nat.add_le_add_left hw t
  · exact (State.besidesReception_appendBit _ _ _).trans hbesides

/-- The RISE one second later is an accepted edge. -/
theorem State.EndsPulse.exec_riseAt {m s : State} {B : Memory} {k t t' : Nat} (h : m.EndsPulse s B k t)
    (ht : t' = t + 1000) : ∃ m', exec (riseAt s.inverted t') m = .next m' ∧ m'.StartsSecond s B k t' := by
  obtain ⟨hholds, href, htime, hbesides⟩ := h
  rw [← State.inverted_of_besidesReception hbesides]
  refine ⟨_, Machine.exec_riseAt (by omega), ?_⟩
  rw [State.rise_of_accepted (by simp [href, ht]) (by simp [href, ht])]
  exact ⟨hholds.congr rfl, rfl, rfl, hbesides⟩

/-- The two edges of second `k` of a frame (rule R102). -/
def secondEdges (inv : Bool) (t0 : Nat) (width : Nat → Nat) (k : Nat) : List Instr :=
  [riseAt inv (t0 + 1000 * k), fallAt inv (t0 + 1000 * k + width k)]

theorem frameEdges_eq (inv : Bool) (t0 : Nat) (width : Nat → Nat) :
    frameEdges inv t0 width = (List.range 59).flatMap (secondEdges inv t0 width) := rfl

theorem execAll_pair {i j : Instr} {s m m' : State} (hi : exec i s = .next m) (hj : exec j m = .next m') :
    execAll [i, j] s = .next m' :=
  (execAll_cons_of_next hi _).trans (execAll_cons_of_next hj _)

/-- The pulses after the first second's RISE, second by second. -/
theorem execAll_secondEdges {s s₀ m₀ : State} {B : Memory} {width : Nat → Nat} {t0 : Nat} (hwidth : Transmits width B)
    (hfirst : exec (riseAt s.inverted t0) s₀ = .next m₀) (hm₀ : m₀.StartsSecond s B 0 t0) {k : Nat} (hk : k < 59) :
    ∃ m, execAll ((List.range (k + 1)).flatMap (secondEdges s.inverted t0 width)) s₀ = .next m ∧
      m.EndsPulse s B (k + 1) (t0 + 1000 * k) := by
  induction k with
  | zero =>
    obtain ⟨m, hfall, hm⟩ := hm₀.exec_fallAt hk (hwidth.bit_eq hk) (hwidth 0 hk).2
    refine ⟨m, ?_, hm⟩
    rw [Nat.zero_add, List.range_one, List.flatMap_singleton]
    exact execAll_pair hfirst hfall
  | succ k ih =>
    obtain ⟨m, hrun, hm⟩ := ih (by omega)
    obtain ⟨r, hrise, hr⟩ := hm.exec_riseAt (t' := t0 + 1000 * (k + 1)) (by omega)
    obtain ⟨m', hfall, hm'⟩ := hr.exec_fallAt hk (hwidth.bit_eq hk) (hwidth (k + 1) hk).2
    refine ⟨m', ?_, hm'⟩
    rw [List.range_succ, List.flatMap_append, execAll_append_of_next hrun]
    rw [List.flatMap_singleton]
    exact execAll_pair hrise hfall

/-! ## The RISE before a frame and the marker's -/

theorem State.finalizeFrame_inverted (s : State) (now : Nat) : (s.finalizeFrame now).inverted = s.inverted := by
  rcases s.finalizeFrame_cases now with ⟨-, e⟩ | ⟨-, e⟩ <;> rw [e] <;> rfl

theorem State.finalizeFrame_tick (s : State) (now : Nat) : (s.finalizeFrame now).tick = s.tick := by
  rcases s.finalizeFrame_cases now with ⟨-, e⟩ | ⟨-, e⟩ <;> rw [e] <;> rfl

theorem State.finalizeFrame_pos (s : State) (now : Nat) : (s.finalizeFrame now).pos = 0 := by
  rcases s.finalizeFrame_cases now with ⟨-, e⟩ | ⟨-, e⟩ <;> rw [e] <;> rfl

/-- FINALIZE reads neither the last timestamp nor the indicator. -/
theorem State.finalizeFrame_stamp_driveIndicator (s : State) (t now : Nat) (lvl : Bool) :
    ((s.stamp t).driveIndicator lvl).finalizeFrame now = ((s.finalizeFrame now).stamp t).driveIndicator lvl := by
  rcases s.finalizeFrame_cases now with ⟨h, e⟩ | ⟨h, e⟩ <;> rw [e]
  · exact State.finalizeFrame_of_ready (s := (s.stamp t).driveIndicator lvl) h now
  · exact State.finalizeFrame_of_not_ready (s := (s.stamp t).driveIndicator lvl) h now

theorem exec_riseAt_of_sync {s : State} {t : Nat} (hle : s.lastTime ≤ t) (hgap : 1200 < t - s.ref) :
    exec (riseAt s.inverted t) s =
      .next ((((s.finalizeFrame t).stamp t).driveIndicator (true ^^ s.inverted)).setRef t) := by
  rw [exec_riseAt hle, State.rise_of_sync (s := (s.stamp t).driveIndicator (true ^^ s.inverted)) hgap,
    State.finalizeFrame_stamp_driveIndicator]

/-- A sync gap, or an accepted edge at position 0, starts a frame as FINALIZE would leave the state. -/
theorem exec_riseAt_startsSecond {s : State} {t : Nat} (hle : s.lastTime ≤ t)
    (hstart : 1200 < t - s.ref ∨ (300 ≤ t - s.ref ∧ s.pos = 0)) (B : Memory) :
    ∃ m, exec (riseAt s.inverted t) s = .next m ∧ m.StartsSecond (s.finalizeFrame t) B 0 t := by
  by_cases hgap : 1200 < t - s.ref
  · exact ⟨_, exec_riseAt_of_sync hle hgap, (State.holdsBits_zero (s.finalizeFrame_pos t) B).congr rfl, rfl, rfl, rfl⟩
  · obtain ⟨hlow, hpos⟩ := hstart.resolve_left hgap
    have hready : ¬ s.FrameReady := fun hready => by simp [State.FrameReady, hpos] at hready
    refine ⟨_, exec_riseAt hle, ?_⟩
    rw [State.rise_of_accepted (s := (s.stamp t).driveIndicator (true ^^ s.inverted)) hlow (Nat.le_of_not_lt hgap),
      State.finalizeFrame_of_not_ready hready]
    exact ⟨(State.holdsBits_zero hpos B).congr rfl, rfl, rfl, rfl⟩

/-- A whole frame and its marker: what the first RISE left is kept while the 59 bits come in, and the marker finalizes those. -/
theorem execAll_frameEdges_marker {B : Memory} {width : Nat → Nat} {s : State} {t0 tm : Nat} (hwidth : Transmits width B)
    (hle : s.lastTime ≤ t0) (hstart : 1200 < t0 - s.ref ∨ (300 ≤ t0 - s.ref ∧ s.pos = 0))
    (hmarker : 1200 < tm - (t0 + 58000)) :
    ∃ m : State, execAll (frameEdges s.inverted t0 width ++ [riseAt s.inverted tm]) s =
        .next ((((m.finalizeFrame tm).stamp tm).driveIndicator (true ^^ s.inverted)).setRef tm) ∧
      m.HoldsBits B 59 ∧ m.besidesReception = (s.finalizeFrame t0).besidesReception := by
  obtain ⟨m₀, hfirst, hm₀⟩ := exec_riseAt_startsSecond hle hstart B
  rw [← s.finalizeFrame_inverted t0] at hfirst ⊢
  obtain ⟨m, hrun, hholds, href, htime, hbesides⟩ := execAll_secondEdges hwidth hfirst hm₀ (k := 58) (by omega)
  have hmark := exec_riseAt_of_sync (s := m) (t := tm) (by omega) (by omega)
  rw [State.inverted_of_besidesReception hbesides] at hmark
  refine ⟨m, ?_, hholds, hbesides⟩
  rw [frameEdges_eq, execAll_append_of_next hrun, execAll_cons_of_next hmark, execAll_nil]

/-- Settles O35: the marker finalizes exactly the frame's bits, and what it does not commit the first RISE left or committed. -/
theorem frameOnTheLineIsDecoded : Obligations.FrameOnTheLineIsDecoded := by
  intro B width s t0 tm hwidth hle _ hstart hmarker
  obtain ⟨m, hrun, hholds, hbesides⟩ := execAll_frameEdges_marker hwidth hle hstart hmarker
  obtain ⟨-, htick, hss, hmm, hhh, hdt, hsync, -, -⟩ := (State.besidesReception_eq_iff _ _).1 hbesides
  have htick' : m.tick = s.tick := htick.trans (s.finalizeFrame_tick t0)
  refine ⟨fun hbalanced => ⟨_, hrun, ?_⟩, fun hbalanced hready => ⟨_, hrun, ?_⟩, fun hbalanced hready => ⟨_, hrun, ?_⟩⟩
  · rw [State.finalizeFrame_of_ready (hholds.frameReady_iff.2 hbalanced), ← hholds.buf_eq]
    exact ⟨rfl, rfl, rfl, rfl, rfl, htick', rfl, rfl, rfl⟩
  · rw [State.finalizeFrame_of_not_ready hready] at hdt hsync hss hmm hhh
    rw [State.finalizeFrame_of_not_ready (mt hholds.frameReady_iff.1 hbalanced)]
    exact ⟨hdt, hsync, hss, hmm, hhh, htick', rfl, rfl, rfl⟩
  · rw [State.finalizeFrame_of_ready hready] at hdt hsync hss hmm hhh
    rw [State.finalizeFrame_of_not_ready (mt hholds.frameReady_iff.1 hbalanced)]
    exact ⟨hdt, hsync, hss, hmm, hhh, htick', rfl, rfl, rfl⟩

end Sys2Proof.Machine
end

section
/-! PROOFS. TICK's carry chain (spec/40_seconds_clock.md rules R106, R108): each register counts up, or returns to 0 and carries into the next. -/

namespace Sys2Proof.Machine

/-- A counted register holds the number the carry chain counts to. -/
theorem ofNat_eq_of_toNat_eq {w k : Nat} {n : BitVec w} (h : n.toNat = k) : BitVec.ofNat w k = n := by
  rw [← h, BitVec.ofNat_toNat, BitVec.setWidth_eq]

/-! ## The registers, one by one -/

section
variable {s : State}

theorem State.advanceTick_counts {n : BitVec 10} (h : s.tick.toNat + 1 < 1000) (hn : n.toNat = s.tick.toNat + 1) :
    s.advanceTick = { s with tick := n } := by
  rw [← ofNat_eq_of_toNat_eq hn]; exact if_pos h

theorem State.advanceTick_carries (h : 1000 ≤ s.tick.toNat + 1) : s.advanceTick = State.carrySecond { s with tick := 0 } :=
  if_neg (Nat.not_lt.2 h)

theorem State.carrySecond_counts {n : BitVec 6} (h : s.ss.toNat + 1 < 60) (hn : n.toNat = s.ss.toNat + 1) :
    s.carrySecond = { s with ss := n } := by
  rw [← ofNat_eq_of_toNat_eq hn]; exact if_pos h

theorem State.carrySecond_carries (h : 60 ≤ s.ss.toNat + 1) : s.carrySecond = State.carryMinute { s with ss := 0 } :=
  if_neg (Nat.not_lt.2 h)

theorem State.carryMinute_counts {n : BitVec 7} (h : s.mm.toNat + 1 < 60) (hn : n.toNat = s.mm.toNat + 1) :
    s.carryMinute = { s with mm := n } := by
  rw [← ofNat_eq_of_toNat_eq hn]; exact if_pos h

theorem State.carryMinute_carries (h : 60 ≤ s.mm.toNat + 1) : s.carryMinute = State.carryHour { s with mm := 0 } :=
  if_neg (Nat.not_lt.2 h)

theorem State.carryHour_counts {n : BitVec 6} (h : s.hh.toNat + 1 < 24) (hn : n.toNat = s.hh.toNat + 1) :
    s.carryHour = { s with hh := n } := by
  rw [← ofNat_eq_of_toNat_eq hn]; exact if_pos h

theorem State.carryHour_carries (h : 24 ≤ s.hh.toNat + 1) : s.carryHour = { s with hh := 0 } :=
  if_neg (Nat.not_lt.2 h)

/-! ## TICK, by how far the carry runs -/

theorem exec_tick_counts_tick {n : BitVec 10} (h : s.tick.toNat + 1 < 1000) (hn : n.toNat = s.tick.toNat + 1) :
    exec .tick s = .next { s with tick := n } :=
  congrArg _ (State.advanceTick_counts h hn)

variable (htick : 1000 ≤ s.tick.toNat + 1)
include htick

theorem exec_tick_counts_ss {n : BitVec 6} (h : s.ss.toNat + 1 < 60) (hn : n.toNat = s.ss.toNat + 1) :
    exec .tick s = .next { s with tick := 0, ss := n } :=
  congrArg _ ((State.advanceTick_carries htick).trans (State.carrySecond_counts h hn))

variable (hss : 60 ≤ s.ss.toNat + 1)
include hss

theorem State.advanceTick_carries_into_mm : s.advanceTick = State.carryMinute { s with tick := 0, ss := 0 } :=
  (State.advanceTick_carries htick).trans (State.carrySecond_carries hss)

theorem exec_tick_counts_mm {n : BitVec 7} (h : s.mm.toNat + 1 < 60) (hn : n.toNat = s.mm.toNat + 1) :
    exec .tick s = .next { s with tick := 0, ss := 0, mm := n } :=
  congrArg _ ((State.advanceTick_carries_into_mm htick hss).trans (State.carryMinute_counts h hn))

variable (hmm : 60 ≤ s.mm.toNat + 1)
include hmm

theorem State.advanceTick_carries_into_hh : s.advanceTick = State.carryHour { s with tick := 0, ss := 0, mm := 0 } :=
  (State.advanceTick_carries_into_mm htick hss).trans (State.carryMinute_carries hmm)

theorem exec_tick_counts_hh {n : BitVec 6} (h : s.hh.toNat + 1 < 24) (hn : n.toNat = s.hh.toNat + 1) :
    exec .tick s = .next { s with tick := 0, ss := 0, mm := 0, hh := n } :=
  congrArg _ ((State.advanceTick_carries_into_hh htick hss hmm).trans (State.carryHour_counts h hn))

theorem exec_tick_ends_day (h : 24 ≤ s.hh.toNat + 1) :
    exec .tick s = .next { s with tick := 0, ss := 0, mm := 0, hh := 0 } :=
  congrArg _ ((State.advanceTick_carries_into_hh htick hss hmm).trans (State.carryHour_carries h))

end

/-- Settles O10, by how far the carry runs. -/
theorem tickCountsWithCarry : Obligations.TickCountsWithCarry := by
  have hword : encode .tick = 0x200000000 := by decide
  exact ⟨hword, hword ▸ decode_tick _ _, fun _ => ⟨fun _ => exec_tick_counts_tick,
    fun _ htick => exec_tick_counts_ss htick, fun _ htick hss => exec_tick_counts_mm htick hss,
    fun _ htick hss hmm => exec_tick_counts_hh htick hss hmm, exec_tick_ends_day⟩⟩

/-! ## The range of the clock -/

/-- TICK counts each register up to its last value in range, or takes it back to 0. -/
theorem State.ClockInRange.advanceTick {s : State} (h : s.ClockInRange) : s.advanceTick.ClockInRange := by
  obtain ⟨-, hss, hmm, hhh⟩ := h
  rcases s.advanceTick_cases with
    ⟨ht, e⟩ | ⟨-, hs, e⟩ | ⟨-, -, hm, e⟩ | ⟨-, -, -, hh, e⟩ | ⟨-, -, -, -, e⟩ <;> rw [e]
  · exact ⟨toNat_ofNat_le_of_le (by omega), hss, hmm, hhh⟩
  · exact ⟨Nat.zero_le _, toNat_ofNat_le_of_le (by omega), hmm, hhh⟩
  · exact ⟨Nat.zero_le _, Nat.zero_le _, toNat_ofNat_le_of_le (by omega), hhh⟩
  · exact ⟨Nat.zero_le _, Nat.zero_le _, Nat.zero_le _, toNat_ofNat_le_of_le (by omega)⟩
  · exact ⟨Nat.zero_le _, Nat.zero_le _, Nat.zero_le _, Nat.zero_le _⟩

/-- Settles O12: the carries compare with at least, so a register beyond its range carries as its last value in range does. -/
theorem outOfRangeClockReturnsToRange : Obligations.OutOfRangeClockReturnsToRange := by
  intro s
  refine ⟨fun htick hss hmm hhh => ?_, fun htick hss hmm hhh => ?_, fun h => ⟨_, exec_tick s, h.advanceTick⟩⟩
  · exact exec_tick_ends_day (by omega) (by omega) (by omega) (by omega)
  · have hcount : (BitVec.ofNat 6 (s.hh.toNat + 1)).toNat = s.hh.toNat + 1 :=
      (BitVec.toNat_ofNat _ _).trans (Nat.mod_eq_of_lt (by omega))
    exact ⟨_, hcount, exec_tick_counts_hh (by omega) (by omega) (by omega) (by omega) hcount⟩

end Sys2Proof.Machine
end

section
/-! PROOFS. The clock reading under TICKs (spec/40_seconds_clock.md rule R107): a TICK adds one to the reading modulo a day, and an in-range
clock is the digits of its reading. -/

namespace Sys2Proof.Machine

/-! ## One TICK -/

section
variable {s : State} (h : s.ClockInRange)
include h

theorem State.ClockInRange.clockReading_lt : s.clockReading < 86400000 := by
  obtain ⟨htick, hss, hmm, hhh⟩ := h
  unfold State.clockReading
  omega

/-- The registers are the digits of the reading. -/
theorem State.ClockInRange.digits :
    s.tick.toNat = s.clockReading % 1000 ∧ s.ss.toNat = s.clockReading / 1000 % 60 ∧
    s.mm.toNat = s.clockReading / 60000 % 60 ∧ s.hh.toNat = s.clockReading / 3600000 := by
  obtain ⟨htick, hss, hmm, hhh⟩ := h
  unfold State.clockReading
  omega

/-- A carry takes a register back by as much as it adds to the next one, and the carry out of the hours takes away a day. -/
theorem State.ClockInRange.clockReading_advanceTick :
    s.advanceTick.clockReading = (s.clockReading + 1) % 86400000 := by
  obtain ⟨htick, hss, hmm, hhh⟩ := h
  rcases s.advanceTick_cases with
    ⟨ht, e⟩ | ⟨ht, hs, e⟩ | ⟨ht, hs, hm, e⟩ | ⟨ht, hs, hm, hh, e⟩ | ⟨ht, hs, hm, hh, e⟩ <;> rw [e] <;>
    simp only [State.clockReading, BitVec.ofNat_eq_ofNat, BitVec.toNat_ofNat] <;> omega

end

/-! ## A sequence of TICKs -/

theorem execAll_replicate_tick (n : Nat) (s : State) :
    execAll (List.replicate n .tick) s = .next (State.advanceTick^[n] s) := by
  induction n generalizing s with
  | zero => rfl
  | succ n ih => rw [List.replicate_succ, execAll_cons_of_next (exec_tick s), ih, Function.iterate_succ_apply]

theorem State.ClockInRange.advanceTick_iterate {s : State} (h : s.ClockInRange) (n : Nat) :
    (State.advanceTick^[n] s).ClockInRange :=
  Function.Iterate.rec State.ClockInRange h (fun _ => State.ClockInRange.advanceTick) n

theorem State.ClockInRange.clockReading_advanceTick_iterate {s : State} (h : s.ClockInRange) (n : Nat) :
    (State.advanceTick^[n] s).clockReading = (s.clockReading + n) % 86400000 := by
  induction n with
  | zero => exact (Nat.mod_eq_of_lt h.clockReading_lt).symm
  | succ n ih =>
    rw [Function.iterate_succ_apply', (h.advanceTick_iterate n).clockReading_advanceTick, ih, Nat.mod_add_mod,
      Nat.add_assoc]

/-- TICKs touch nothing outside the clock (rule R109). -/
theorem State.advanceTick_iterate_frame (s : State) (n : Nat) :
    State.advanceTick^[n] s = s.withClockOf (State.advanceTick^[n] s) := by
  induction n with
  | zero => rfl
  | succ n ih =>
    rw [Function.iterate_succ_apply', ih, State.advanceTick_withClockOf]
    rfl

/-- Settles O11: `n` TICKs add `n` to the reading, whose digits are the registers. -/
theorem ticksAdvanceTheClockModuloADay : Obligations.TicksAdvanceTheClockModuloADay := by
  intro s n h
  obtain ⟨htick, hss, hmm, hhh⟩ := (h.advanceTick_iterate n).digits
  rw [h.clockReading_advanceTick_iterate n] at htick hss hmm hhh
  exact ⟨_, execAll_replicate_tick n s, htick, hss, hmm, hhh, s.advanceTick_iterate_frame n⟩

end Sys2Proof.Machine
end

section
/-! PROOFS. Which operation writes which register (spec/10_state.md rule R36, spec/40_seconds_clock.md rules R109, R110). -/

namespace Sys2Proof.Machine

/-- FINALIZE writes neither `tick`, nor `ref`, nor a parity flag (rule R162). -/
theorem State.finalizeFrame_frame (s : State) (now : Nat) :
    s.finalizeFrame now =
      { s with
        ss := (s.finalizeFrame now).ss, mm := (s.finalizeFrame now).mm, hh := (s.finalizeFrame now).hh,
        buf := (s.finalizeFrame now).buf, pos := (s.finalizeFrame now).pos, dt := (s.finalizeFrame now).dt,
        last_sync := (s.finalizeFrame now).last_sync } := by
  rcases s.finalizeFrame_cases now with ⟨-, e⟩ | ⟨-, e⟩ <;> rw [e] <;> rfl

section
variable {i : Instr} {s s' : State} (hnext : exec i s = .next s')
include hnext

/-- What is not TICK and does not commit leaves the clock registers alone, since it ignores the clock. -/
theorem exec_keeps_clock (hne : i ≠ .tick) (hcommits : ¬ s.Commits i) : s' = s'.withClockOf s := by
  cases i with
  | tick => exact absurd rfl hne
  | nop => cases hnext; rfl
  | edge t lvl =>
    obtain ⟨-, rfl⟩ := timestamped_next hnext
    exact State.ignoresClock_onEdge (s := s.stamp t) hcommits s
  | append b now =>
    obtain ⟨-, rfl⟩ := timestamped_next hnext
    exact State.ignoresClock_appendBit (s.stamp now) b now s
  | finalize now =>
    obtain ⟨-, rfl⟩ := timestamped_next hnext
    exact State.ignoresClock_finalizeFrame (s := s.stamp now) hcommits now s
  | readtime => cases hnext; rfl
  | gettime => cases hnext; rfl
  | issynced now => obtain ⟨-, rfl⟩ := timestamped_next hnext; rfl

/-- Not even a commit writes `tick` (rule R160). -/
theorem exec_keeps_tick (hne : i ≠ .tick) : s'.tick = s.tick := by
  by_cases hcommits : s.Commits i
  · obtain ⟨now, ref, indicator, -, rfl⟩ := exec_of_commits hcommits hnext
    rfl
  · rw [exec_keeps_clock hnext hne hcommits]; rfl

theorem exec_keeps_ref (hne : ∀ t lvl, i ≠ .edge t lvl) : s'.ref = s.ref := by
  cases i with
  | edge t lvl => exact absurd rfl (hne t lvl)
  | nop => cases hnext; rfl
  | tick => cases hnext; rw [State.advanceTick_frame]
  | append b now => obtain ⟨-, rfl⟩ := timestamped_next hnext; rw [State.appendBit_frame]; rfl
  | finalize now => obtain ⟨-, rfl⟩ := timestamped_next hnext; rw [State.finalizeFrame_frame]; rfl
  | readtime => cases hnext; rfl
  | gettime => cases hnext; rfl
  | issynced now => obtain ⟨-, rfl⟩ := timestamped_next hnext; rfl

/-- The reader's operations write output ports at most (rule R183). -/
theorem exec_keeps_registers (hreader : isReaders i = true) : s'.registers = s.registers := by
  cases i with
  | nop => cases hnext; rfl
  | readtime => cases hnext; rfl
  | gettime => cases hnext; rfl
  | issynced now => obtain ⟨-, rfl⟩ := timestamped_next hnext; rfl
  | tick => cases hreader
  | edge t lvl => cases hreader
  | append b now => cases hreader
  | finalize now => cases hreader

end

theorem exec_finalize_keeps_parities {now : Nat} {s s' : State} (hnext : exec (.finalize now) s = .next s') :
    s'.par_run = s.par_run ∧ s'.par_min = s.par_min ∧ s'.par_hour = s.par_hour ∧ s'.par_date = s.par_date := by
  obtain ⟨-, rfl⟩ := timestamped_next hnext
  rw [State.finalizeFrame_frame]
  exact ⟨rfl, rfl, rfl, rfl⟩

/-- Settles O44. -/
theorem contextsWriteOnlyTheirRegisters : Obligations.ContextsWriteOnlyTheirRegisters := by
  intro i s s' hnext
  refine ⟨?_, fun hne => ⟨exec_keeps_tick hnext hne, fun hcommits => ?_⟩, exec_keeps_ref hnext, ?_, exec_keeps_registers hnext⟩
  · rintro rfl
    cases hnext
    exact s.advanceTick_frame
  · rw [exec_keeps_clock hnext hne hcommits]
    exact ⟨rfl, rfl, rfl⟩
  · rintro now rfl
    exact exec_finalize_keeps_parities hnext

/-- Settles O13. -/
theorem readtimeReturnsTheClock : Obligations.ReadtimeReturnsTheClock := by
  have hword : encode .readtime = 0xA00000000 := by decide
  exact ⟨hword, hword ▸ decode_readtime _ _, fun _ => rfl⟩

end Sys2Proof.Machine
end

section
/-! PROOFS. The Edge Classifier (spec/41_edge_classifier.md rules R123 to R127, R131): a RISE by its gap, stated next to FINALIZE where the gap
is a sync gap, and a FALL next to APPEND. -/

namespace Sys2Proof.Machine

/-! ## What the actions do with the indicator, the last timestamp, the buffer and the position -/

/-- FINALIZE does not read the last timestamp. -/
theorem State.finalizeFrame_stamp (s : State) (t now : Nat) : (s.stamp t).finalizeFrame now = (s.finalizeFrame now).stamp t := by
  rcases s.finalizeFrame_cases now with ⟨h, e⟩ | ⟨h, e⟩ <;> rw [e]
  · exact State.finalizeFrame_of_ready (s := s.stamp t) h now
  · exact State.finalizeFrame_of_not_ready (s := s.stamp t) h now

theorem State.finalizeFrame_buf (s : State) (now : Nat) : (s.finalizeFrame now).buf = 0 := by
  rcases s.finalizeFrame_cases now with ⟨-, e⟩ | ⟨-, e⟩ <;> rw [e] <;> rfl

/-- APPEND does not read the indicator. -/
theorem State.appendBit_driveIndicator (s : State) (lvl b : Bool) (now : Nat) :
    (s.driveIndicator lvl).appendBit b now = (s.appendBit b now).driveIndicator lvl := by
  by_cases h : s.pos.toNat ≤ 58
  · rw [State.appendBit_of_le s b now h, State.appendBit_of_le (s.driveIndicator lvl) b now h]
    rfl
  · rw [State.appendBit_of_ge s b now (by omega), State.appendBit_of_ge (s.driveIndicator lvl) b now (Nat.lt_of_not_le h)]
    rfl

/-- The clamp at 0 is that of subtraction on the natural numbers. -/
theorem State.rollback_pos_toNat (s : State) : s.rollback.pos.toNat = s.pos.toNat - 1 := by
  have hlt := s.pos.isLt
  rw [State.rollback_pos, BitVec.toNat_ofNat, Nat.mod_eq_of_lt (by omega)]
  omega

theorem State.not_frameReady_resetWith (inv : Bool) : ¬ (State.resetWith inv).FrameReady := by
  rintro ⟨hpos, -⟩
  exact absurd hpos (by decide : (0#6).toNat ≠ 59)

/-! ## An EDGE, by its logical level and the time since `ref` -/

/-- The raw level of a RISE is the one `riseAt` gives it (rules R87, R102). -/
theorem State.isRise.eq_xor {s : State} {lvl : Bool} (h : s.isRise lvl) : lvl = (true ^^ s.inverted) := by
  simpa [State.isRise, Bool.eq_not_iff] using h

/-- The raw level of a FALL is the one `fallAt` gives it (rules R87, R102). -/
theorem State.eq_xor_of_not_isRise {s : State} {lvl : Bool} (h : ¬ s.isRise lvl) : lvl = (false ^^ s.inverted) := by
  simpa [State.isRise] using h

section
variable {s : State} {t : Nat} (hle : s.lastTime ≤ t)
include hle

theorem exec_riseAt_of_spurious (hgap : t - s.ref < 300) :
    exec (riseAt s.inverted t) s = .next ((s.stamp t).driveIndicator (true ^^ s.inverted)).rollback := by
  rw [exec_riseAt hle, State.rise_of_spurious (s := (s.stamp t).driveIndicator _) hgap]

theorem exec_riseAt_of_accepted (hlow : 300 ≤ t - s.ref) (hhigh : t - s.ref ≤ 1200) :
    exec (riseAt s.inverted t) s = .next (((s.stamp t).driveIndicator (true ^^ s.inverted)).setRef t) := by
  rw [exec_riseAt hle, State.rise_of_accepted (s := (s.stamp t).driveIndicator _) hlow hhigh]

/-- A FALL is the APPEND of its classified bit, with the level on the indicator. -/
theorem exec_fallAt_eq_append {b : Bool} (hbit : decide (140 ≤ t - s.ref) = b) :
    ∃ a, exec (.append b t) s = .next a ∧
      exec (fallAt s.inverted t) s = .next (a.driveIndicator (false ^^ s.inverted)) :=
  ⟨_, exec_append b hle, by rw [exec_fallAt hle, hbit, State.appendBit_driveIndicator]⟩

end

/-! ## The obligations -/

/-- Settles O14: both operations leave what FINALIZE's work leaves, and that work commits exactly on an acceptable frame. -/
theorem syncGapRiseFinalizes : Obligations.SyncGapRiseFinalizes := by
  intro s t lvl hle hrise hgap
  obtain rfl := hrise.eq_xor
  have hfinal : exec (.finalize t) s = .next ((s.finalizeFrame t).stamp t) := by
    rw [exec_finalize hle, State.finalizeFrame_stamp]
  refine ⟨_, hfinal, s.finalizeFrame_buf t, s.finalizeFrame_pos t,
    fun hready => exec_of_not_commits (i := .finalize t) hready hfinal, fun hready => ?_, exec_riseAt_of_sync hle hgap⟩
  rw [State.finalizeFrame_of_ready hready]
  rfl

/-- Settles O17: the width decides the bit, and the FALL is the APPEND of it. -/
theorem fallAppendsTheClassifiedBit : Obligations.FallAppendsTheClassifiedBit := by
  intro s t lvl hle _ hfall
  obtain rfl := State.eq_xor_of_not_isRise hfall
  exact ⟨fun hshort => exec_fallAt_eq_append hle (decide_eq_false (Nat.not_le_of_lt hshort)),
    fun hlong => exec_fallAt_eq_append hle (decide_eq_true hlong)⟩

/-- Settles O15. -/
theorem spuriousRiseOnlyRollsBack : Obligations.SpuriousRiseOnlyRollsBack := by
  intro s t lvl hle _ hrise hgap
  obtain rfl := hrise.eq_xor
  exact ⟨s.rollback.pos, s.rollback_pos_toNat, exec_riseAt_of_spurious hle hgap⟩

/-- Settles O16. -/
theorem acceptedRiseOnlyMovesRef : Obligations.AcceptedRiseOnlyMovesRef := by
  intro s t lvl hle hrise hlow hhigh
  obtain rfl := hrise.eq_xor
  exact exec_riseAt_of_accepted hle hlow hhigh

/-- Settles O20: after reset the gap is the timestamp itself, position 0 has nothing to roll back, and the empty frame is not acceptable,
so a sync gap clears what is already clear. -/
theorem firstRiseIsClassifiedByItsTimestamp : Obligations.FirstRiseIsClassifiedByItsTimestamp := by
  intro inv lvl t hlevel
  have hrise : (State.resetWith inv).isRise lvl := hlevel
  have hle : (State.resetWith inv).lastTime ≤ t := Nat.zero_le t
  obtain rfl := hrise.eq_xor
  refine ⟨fun hgap => exec_riseAt_of_spurious hle hgap, fun hlow => ?_⟩
  by_cases hgap : 1200 < t
  · refine (exec_riseAt_of_sync hle hgap).trans ?_
    rw [State.finalizeFrame_of_not_ready (State.not_frameReady_resetWith inv)]
    rfl
  · exact exec_riseAt_of_accepted hle hlow (Nat.le_of_not_lt hgap)

end Sys2Proof.Machine
end

section
/-! PROOFS. The parity flags (spec/42_frame_decoder.md rules R143 to R145, R148): what APPEND does with each of them, and that every
operation but the spurious RISE keeps them in step with the buffer. -/

namespace Sys2Proof.Machine

/-! ## The flags under APPEND -/

/-- APPEND's effect on the four flags is the same at every position, at 59 too, which is no field's start or end. -/
theorem State.appendBit_flags (s : State) (b : Bool) (now : Nat) :
    (s.appendBit b now).par_run =
      ((if s.pos.toNat = 21 ∨ s.pos.toNat = 29 ∨ s.pos.toNat = 36 then false else s.par_run) ^^ b) ∧
    (s.appendBit b now).par_min = (if s.pos.toNat = 28 then s.par_run else s.par_min) ∧
    (s.appendBit b now).par_hour = (if s.pos.toNat = 35 then s.par_run else s.par_hour) ∧
    (s.appendBit b now).par_date = (if s.pos.toNat = 58 then s.par_run else s.par_date) := by
  by_cases h : s.pos.toNat ≤ 58
  · rw [State.appendBit_of_le s b now h]
    exact ⟨rfl, rfl, rfl, rfl⟩
  · rw [State.appendBit_of_ge s b now (by omega), if_neg (by omega), if_neg (by omega), if_neg (by omega), if_neg (by omega)]
    exact ⟨rfl, rfl, rfl, rfl⟩

section
variable {s : State} (b : Bool) (now : Nat)

theorem State.appendBit_par_run_of_start (h : s.pos.toNat = 21 ∨ s.pos.toNat = 29 ∨ s.pos.toNat = 36) :
    (s.appendBit b now).par_run = b := by
  rw [(s.appendBit_flags b now).1, if_pos h, Bool.false_xor]

theorem State.appendBit_par_run_of_not_start (h : ¬ (s.pos.toNat = 21 ∨ s.pos.toNat = 29 ∨ s.pos.toNat = 36)) :
    (s.appendBit b now).par_run = (s.par_run ^^ b) := by
  rw [(s.appendBit_flags b now).1, if_neg h]

end

/-- Settles O22: at a field's end the running parity that is saved is that of the field's data bits. -/
theorem appendUpdatesTheParityFlags : Obligations.AppendUpdatesTheParityFlags := by
  intro s b now hle
  obtain ⟨-, hmin, hhour, hdate⟩ := (s.stamp now).appendBit_flags b now
  refine ⟨_, exec_append b hle, fun h => State.appendBit_par_run_of_start (s := s.stamp now) b now h,
    fun h21 h29 h36 => State.appendBit_par_run_of_not_start (s := s.stamp now) b now (not_or.2 ⟨h21, not_or.2 ⟨h29, h36⟩⟩),
    hmin, hhour, hdate, fun htracks => ⟨fun hend => ?_, fun hend => ?_, fun hend => ?_⟩⟩
  · simpa [hend, hmin] using htracks.in_minute (by omega) (by omega)
  · simpa [hend, hhour] using htracks.in_hour (by omega) (by omega)
  · simpa [hend, hdate] using htracks.in_date (by omega) (by omega)

/-! ## The invariant -/

/-- Only the buffer, the position and the flags matter. -/
theorem State.ParityTracksBuffer.congr {s s' : State} (h : s.ParityTracksBuffer)
    (e : s' = { s' with
      buf := s.buf, pos := s.pos, par_run := s.par_run, par_min := s.par_min, par_hour := s.par_hour,
      par_date := s.par_date }) : s'.ParityTracksBuffer := by
  rw [e]
  exact ⟨h.in_minute, h.in_hour, h.in_date, h.minute_saved, h.hour_saved, h.date_saved⟩

/-- Of the four cases of an EDGE, the excluded one is the spurious RISE. -/
theorem State.ParityTracksBuffer.of_exec_edge {s s' : State} {t : Nat} {lvl : Bool} (h : s.ParityTracksBuffer)
    (hroll : ¬ s.RollsBack (.edge t lvl)) (hnext : exec (.edge t lvl) s = .next s') : s'.ParityTracksBuffer := by
  have hdriven : ((s.stamp t).driveIndicator lvl).ParityTracksBuffer := h.congr rfl
  rcases exec_edge_next hnext with ⟨-, ⟨-, -, rfl⟩ | ⟨hrise, hgap, -⟩ | ⟨-, -, -, rfl⟩ | ⟨-, rfl⟩⟩
  · exact State.parityTracksBuffer_of_pos_eq_zero (State.finalizeFrame_pos ((s.stamp t).driveIndicator lvl) t)
  · exact absurd ⟨hrise, hgap⟩ hroll
  · exact hdriven.congr rfl
  · exact hdriven.appendBit _ t

/-- Settles O32, operation by operation: APPEND, and a FALL by it, take a cell and its parity in together, FINALIZE and a sync gap go back to
position 0, where the flags claim nothing, and the others write neither the frame nor the flags. -/
theorem parityTracksTheBufferWithoutRollback : Obligations.ParityTracksTheBufferWithoutRollback := by
  refine ⟨fun _ => State.parityTracksBuffer_of_pos_eq_zero rfl, ?_⟩
  intro i s s' h hroll hnext
  cases i with
  | nop => cases hnext; exact h
  | tick => cases hnext; exact h.congr (by rw [State.advanceTick_frame])
  | edge t lvl => exact h.of_exec_edge hroll hnext
  | append b now =>
    obtain ⟨-, rfl⟩ := timestamped_next hnext
    have hstamped : (s.stamp now).ParityTracksBuffer := h.congr rfl
    exact hstamped.appendBit b now
  | finalize now =>
    obtain ⟨-, rfl⟩ := timestamped_next hnext
    exact State.parityTracksBuffer_of_pos_eq_zero (State.finalizeFrame_pos _ now)
  | readtime => cases hnext; exact h.congr rfl
  | gettime => cases hnext; exact h.congr rfl
  | issynced now => obtain ⟨-, rfl⟩ := timestamped_next hnext; exact h.congr rfl

end Sys2Proof.Machine
end

section
/-! PROOFS. APPEND and FINALIZE as single operations (spec/42_frame_decoder.md rules R142, R146, R149 to R163), and the BCD conversion
(rule R152). -/

namespace Sys2Proof.Machine

/-! ## APPEND -/

/-- Settles O21: the write at 59 has no cell, and below it APPEND's write is the one cell at the position. -/
theorem appendStoresOneBitAtThePosition : Obligations.AppendStoresOneBitAtThePosition := by
  refine ⟨fun m b => m.write_of_ge b le_rfl, fun s b now hle hpos => ?_⟩
  have hbit := State.appendBit_bit (s := s.stamp now) b now hpos
  exact ⟨_, exec_append b hle, State.appendBit_pos_toNat (s := s.stamp now) b now hpos,
    (hbit s.pos.toNat).trans (if_pos rfl), fun q hq => (hbit q).trans (if_neg hq), (s.stamp now).appendBit_frame b now⟩

/-- Settles O23: only a position above 58 goes on to FINALIZE, and the advanced position is then not 59. -/
theorem sixtiethBitDiscardsTheFrame : Obligations.SixtiethBitDiscardsTheFrame := by
  intro s b now hle
  refine ⟨fun hpos => ?_, fun hpos => ?_⟩
  · rw [exec_append b hle, State.appendBit_of_ge (s.stamp now) b now hpos.ge]
    rfl
  · exact ⟨_, exec_append b hle, State.appendBit_pos_toNat (s := s.stamp now) b now hpos,
      (State.appendBit_bit (s := s.stamp now) b now hpos _).trans (if_pos rfl), State.appendBit_dt _ _ _,
      State.appendBit_last_sync _ _ _⟩

/-! ## FINALIZE -/

theorem exec_finalize_stamped {s : State} {now : Nat} (hle : s.lastTime ≤ now) :
    exec (.finalize now) s = .next ((s.finalizeFrame now).stamp now) := by
  rw [exec_finalize hle, State.finalizeFrame_stamp]

/-- Settles O24: the two conditions are that the frame is acceptable and that it is not, and no converted field overflows its register. -/
theorem finalizeCommitsOrDiscards : Obligations.FinalizeCommitsOrDiscards := by
  refine ⟨by decide, decode_finalize, fun s now hle => ⟨fun hpos hmin hhour hdate => ?_, fun hdiscard => ?_⟩⟩
  · refine ⟨decodedTime s.buf, rfl, decodedTime_minute _, decodedTime_hour _, decodedTime_day _, decodedTime_month _,
      decodedTime_year _, ?_⟩
    rw [exec_finalize_stamped hle, State.finalizeFrame_of_ready ⟨hpos, hmin, hhour, hdate⟩]
    rfl
  · have hready : ¬ s.FrameReady := by
      rintro ⟨hpos, hmin, hhour, hdate⟩
      rcases hdiscard with hne | hne | hne | hne
      · exact hne hpos
      · exact hne hmin
      · exact hne hhour
      · exact hne hdate
    rw [exec_finalize_stamped hle, State.finalizeFrame_of_not_ready hready]
    rfl

/-- Settles O25: an operation that does not commit changes neither, and one that does leaves its timestamp in `last_sync`. -/
theorem onlyASyncGapOrFinalizeCommits : Obligations.OnlyASyncGapOrFinalizeCommits := by
  intro i s s' hnext hchanged
  by_cases hcommits : s.Commits i
  · obtain ⟨now, ref, indicator, htimestamp, rfl⟩ := exec_of_commits hcommits hnext
    exact ⟨hcommits, htimestamp⟩
  · obtain ⟨hdt, hsync⟩ := exec_of_not_commits hcommits hnext
    exact (hchanged.elim (· hdt) (· hsync)).elim

/-! ## The BCD conversion -/

/-- Settles O27: the conversion takes the quotient by 16 as tens and the remainder as ones, valid digits or not. -/
theorem bcdConversionOfTensAndOnes : Obligations.BcdConversionOfTensAndOnes := by
  refine ⟨fun v => ⟨rfl, by omega⟩, fun T U hU => ?_⟩
  rw [bcd2bin_eq_tens_ones]
  omega

end Sys2Proof.Machine
end

section
/-! PROOFS. A frame as 59 APPENDs (spec/42_frame_decoder.md rules R148, R164): its bits and parities, and what FINALIZE then makes of a
balanced frame and of one with an inverted bit. -/

namespace Sys2Proof.Machine

/-! ## The APPENDs of a frame -/

/-- `s` with the buffer, the position and the parity flags of `m`. -/
def State.withFrameOf (s m : State) : State :=
  { s with
    buf := m.buf, pos := m.pos, par_run := m.par_run, par_min := m.par_min, par_hour := m.par_hour,
    par_date := m.par_date }

theorem State.appendBit_eq_withFrameOf (s : State) (b : Bool) (now : Nat) :
    s.appendBit b now = s.withFrameOf (s.appendBit b now) :=
  s.appendBit_frame b now

theorem State.eq_withFrameOf_trans {s m n : State} (hm : m = s.withFrameOf m) (hn : n = m.withFrameOf n) :
    n = s.withFrameOf n := by
  rw [hm] at hn
  exact hn

/-- APPEND stamps its time itself, so stamping it beforehand changes nothing. -/
theorem exec_append_stamp {s : State} {now : Nat} (hle : s.lastTime ≤ now) (b : Bool) :
    exec (.append b now) (s.stamp now) = exec (.append b now) s :=
  (exec_append (s := s.stamp now) b le_rfl).trans (exec_append b hle).symm

/-- The APPENDs of the first `k` bits of `B` (rule R148). -/
def appendsUpTo (B : Memory) (now k : Nat) : List Instr :=
  (List.range k).map fun p => .append (B.bit p) now

theorem frameAppends_eq (B : Memory) (now : Nat) : frameAppends B now = appendsUpTo B now 59 := rfl

theorem appendsUpTo_succ (B : Memory) (now k : Nat) :
    appendsUpTo B now (k + 1) = appendsUpTo B now k ++ [.append (B.bit k) now] := by
  simp [appendsUpTo, List.range_succ]

/-- The first of the APPENDs stamps their time. -/
theorem execAll_appendsUpTo_stamp {s : State} {now : Nat} (hle : s.lastTime ≤ now) (B : Memory) (k : Nat) :
    execAll (appendsUpTo B now (k + 1)) (s.stamp now) = execAll (appendsUpTo B now (k + 1)) s := by
  rw [appendsUpTo, List.range_succ_eq_map, List.map_cons, execAll, execAll, exec_append_stamp hle]

/-- `m` holds the first `k` bits of the frame `B` and is the state `s` in all but the buffer, the position and the parity flags. -/
structure State.TookIn (m s : State) (B : Memory) (k : Nat) : Prop where
  holds : m.HoldsBits B k
  frame : m = s.withFrameOf m

/-- One more APPEND, at the time `s` has been given. -/
theorem State.TookIn.append {m s : State} {B : Memory} {k : Nat} (h : m.TookIn s B k) (hk : k < 59) :
    exec (.append (B.bit k) s.lastTime) m = .next (m.appendBit (B.bit k) s.lastTime) ∧
    (m.appendBit (B.bit k) s.lastTime).TookIn s B (k + 1) := by
  obtain ⟨hholds, hframe⟩ := h
  have hlast : m.lastTime = s.lastTime := by rw [hframe]; rfl
  have hstamp : m.stamp s.lastTime = m := by rw [← hlast]; rfl
  exact ⟨by rw [exec_append _ hlast.le, hstamp], hholds.appendBit hk _,
    State.eq_withFrameOf_trans hframe (m.appendBit_eq_withFrameOf _ _)⟩

theorem execAll_appendsUpTo {s : State} (hpos : s.pos = 0) (B : Memory) {k : Nat} (hk : k ≤ 59) :
    ∃ m, execAll (appendsUpTo B s.lastTime k) s = .next m ∧ m.TookIn s B k := by
  induction k with
  | zero => exact ⟨s, rfl, State.holdsBits_zero hpos B, rfl⟩
  | succ k ih =>
    obtain ⟨m, hrun, hm⟩ := ih (by omega)
    obtain ⟨hnext, hm'⟩ := hm.append hk
    exact ⟨_, by rw [appendsUpTo_succ, execAll_append_of_next hrun, execAll_cons_of_next hnext, execAll_nil], hm'⟩

/-- At 58, behind the last data bit of the date, the running parity is that of the date; the last APPEND takes the date's parity
bit in. -/
theorem State.TookIn.par_run_append {m s : State} {B : Memory} (h : m.TookIn s B 58) :
    (m.appendBit (B.bit 58) s.lastTime).par_run = (B.parity 36 22 ^^ B.bit 58) := by
  have hpos := h.holds.pos_eq
  have hrun : m.par_run = m.buf.parity 36 (m.pos.toNat - 36) := h.holds.parity.in_date (by omega) (by omega)
  have hbits : m.buf.parity 36 22 = B.parity 36 22 := Memory.parity_congr fun k _ => h.holds.bit_eq _ (by omega)
  rw [State.appendBit_par_run_of_not_start _ _ (by omega), hrun, hpos, hbits]

theorem execAll_frameAppends {s : State} {now : Nat} (hle : s.lastTime ≤ now) (hpos : s.pos = 0) (B : Memory) :
    ∃ m, execAll (frameAppends B now) s = .next m ∧ m.TookIn (s.stamp now) B 59 ∧
      m.par_run = (B.parity 36 22 ^^ B.bit 58) := by
  obtain ⟨m, hrun, hm⟩ := execAll_appendsUpTo (s := s.stamp now) hpos B (k := 58) (by omega)
  obtain ⟨hnext, hm'⟩ := hm.append (by omega)
  refine ⟨_, ?_, hm', hm.par_run_append⟩
  rw [frameAppends_eq, ← execAll_appendsUpTo_stamp hle, appendsUpTo_succ]
  exact (execAll_append_of_next hrun).trans (execAll_cons_of_next hnext [])

/-- Settles O29: behind its end each field's saved parity is that of its cells, and the cells are the frame's bits. -/
theorem frameAppendsLeaveItsBitsAndParities : Obligations.FrameAppendsLeaveItsBitsAndParities := by
  intro B s now hle hpos
  obtain ⟨m, hrun, ⟨hholds, hframe⟩, hparRun⟩ := execAll_frameAppends hle hpos B
  have hend := hholds.pos_eq
  have hmin := hholds.parity.minute_saved (by omega)
  have hhour := hholds.parity.hour_saved (by omega)
  have hdate := hholds.parity.date_saved (by omega)
  rw [hholds.buf_eq] at hmin hhour hdate
  exact ⟨m, hrun, hholds.buf_eq, hend, hmin, hhour, hdate, hparRun, hframe⟩

/-! ## The FINALIZE behind a frame -/

section
variable {s : State} {now : Nat} (hle : s.lastTime ≤ now) (hpos : s.pos = 0) {B : Memory}
include hle hpos

variable (B) in
theorem execAll_frameAppends_finalize :
    ∃ m : State, execAll (frameAppends B now ++ [.finalize now]) s = .next ((m.finalizeFrame now).stamp now) ∧
      m.TookIn (s.stamp now) B 59 := by
  obtain ⟨m, hrun, hm, -⟩ := execAll_frameAppends hle hpos B
  have hlast : m.lastTime = now := by rw [hm.frame]; rfl
  exact ⟨m, (execAll_append_of_next hrun).trans (execAll_cons_of_next (exec_finalize_stamped hlast.le) []), hm⟩

theorem execAll_frameAppends_finalize_of_balanced (hbalanced : B.Balanced) :
    ∃ s', execAll (frameAppends B now ++ [.finalize now]) s = .next s' ∧
      s'.dt = decodedTime B ∧ s'.last_sync = now ∧ s'.ss = 0 ∧ s'.mm = (decodedTime B).minute ∧
      s'.hh = (decodedTime B).hour := by
  obtain ⟨m, hrun, hholds, -⟩ := execAll_frameAppends_finalize hle hpos B
  refine ⟨_, hrun, ?_⟩
  rw [State.finalizeFrame_of_ready (hholds.frameReady_iff.2 hbalanced), ← hholds.buf_eq]
  exact ⟨rfl, rfl, rfl, rfl, rfl⟩

theorem execAll_frameAppends_finalize_of_not_balanced (hbalanced : ¬ B.Balanced) :
    ∃ s', execAll (frameAppends B now ++ [.finalize now]) s = .next s' ∧
      s'.dt = s.dt ∧ s'.last_sync = s.last_sync ∧ s'.ss = s.ss ∧ s'.mm = s.mm ∧ s'.hh = s.hh := by
  obtain ⟨m, hrun, hholds, hframe⟩ := execAll_frameAppends_finalize hle hpos B
  refine ⟨_, hrun, ?_⟩
  rw [State.finalizeFrame_of_not_ready (mt hholds.frameReady_iff.1 hbalanced), hframe]
  exact ⟨rfl, rfl, rfl, rfl, rfl⟩

end

/-! ## One inverted bit -/

/-- A field whose parity bit follows it matches no longer exactly when the inverted bit is one of the two's. -/
theorem Memory.flip_bit_eq_parity_iff {B : Memory} {o w k : Nat} (h : B.bit (o + w) = B.parity o w) (hk : k < 59) :
    (B.flip k).bit (o + w) = (B.flip k).parity o w ↔ ¬ (o ≤ k ∧ k ≤ o + w) := by
  rw [Memory.bit_flip _ hk, Memory.parity_flip _ hk, h, Bool.xor_right_inj, decide_eq_decide]
  omega

/-- The three fields with their parity bits are the bits 21 to 28, 29 to 35 and 36 to 58. -/
theorem Memory.Balanced.flip_iff {B : Memory} (h : B.Balanced) {k : Nat} (hk : k < 59) : (B.flip k).Balanced ↔ k < 21 := by
  obtain ⟨hmin, hhour, hdate⟩ := h
  have hmin' := Memory.flip_bit_eq_parity_iff (o := 21) (w := 7) hmin hk
  have hhour' := Memory.flip_bit_eq_parity_iff (o := 29) (w := 6) hhour hk
  have hdate' := Memory.flip_bit_eq_parity_iff (o := 36) (w := 22) hdate hk
  rw [Memory.Balanced, hmin', hhour', hdate']
  omega

/-- A field read depends on its cells only. -/
theorem Memory.read_congr {m n : Memory} {o w : Nat} (h : ∀ k, k < w → m.bit (o + k) = n.bit (o + k)) :
    m.read o w = n.read o w := by
  induction w with
  | zero => rw [Memory.read_zero, Memory.read_zero]
  | succ w ih =>
    rw [Memory.read_succ, Memory.read_succ, ih fun k hk => h k (by omega), h w (by omega)]

/-- A commit reads nothing below the minute's first bit (rule R154). -/
theorem decodedTime_flip_of_lt {B : Memory} {k : Nat} (hk : k < 21) : decodedTime (B.flip k) = decodedTime B := by
  have hread : ∀ o w, 21 ≤ o → (B.flip k).read o w = B.read o w := fun o w ho =>
    Memory.read_congr fun p _ => by
      have hne : o + p ≠ k := by omega
      rw [Memory.bit_flip _ (by omega), decide_eq_false hne, Bool.xor_false]
  simp only [decodedTime, hread 21 7 le_rfl, hread 29 6 (by omega), hread 36 6 (by omega), hread 45 5 (by omega),
    hread 50 8 (by omega)]

/-- Settles O30: from 21 on an inverted bit leaves its field unbalanced, and below 21 it is neither checked nor read. -/
theorem singleFlippedBitIsNeverCommitted : Obligations.SingleFlippedBitIsNeverCommitted := by
  intro B s now k hle hpos hbalanced
  refine ⟨execAll_frameAppends_finalize_of_balanced hle hpos hbalanced, fun hlow hhigh => ?_, fun hlow => ?_⟩
  · have hflipped : ¬ (B.flip k).Balanced := fun h => by
      have := (hbalanced.flip_iff (by omega)).1 h
      omega
    exact execAll_frameAppends_finalize_of_not_balanced hle hpos hflipped
  · have hflipped : (B.flip k).Balanced := (hbalanced.flip_iff (by omega)).2 (by omega)
    rw [← decodedTime_flip_of_lt (B := B) (k := k) (by omega)]
    exact execAll_frameAppends_finalize_of_balanced hle hpos hflipped

end Sys2Proof.Machine
end

section
/-! PROOFS. An APPEND repeated after a rollback (spec/42_frame_decoder.md rule R166, spec/70_reset_and_hazards.md rule R220): the cell and the
position are those of one APPEND, the running parity has taken the bit in twice. -/

namespace Sys2Proof.Machine

/-- A second write to a cell overwrites the first (rule R61). -/
theorem Memory.write_write (m : Memory) {p : Nat} (b c : Bool) (h : p ≤ 58) : (m.write p b).write p c = m.write p c := by
  apply Memory.ext_bit
  intro q _
  rw [Memory.bit_write _ _ _ _ h, Memory.bit_write _ _ _ _ h, Memory.bit_write _ _ _ _ h]
  split
  case isTrue => rfl
  case isFalse => rfl

theorem State.appendBit_buf {s : State} (b : Bool) (now : Nat) (h : s.pos.toNat ≤ 58) :
    (s.appendBit b now).buf = s.buf.write s.pos.toNat b := by
  rw [State.appendBit_of_le s b now h]

theorem State.appendBit_pos {s : State} (b : Bool) (now : Nat) (h : s.pos.toNat ≤ 58) :
    (s.appendBit b now).pos = BitVec.ofNat 6 (s.pos.toNat + 1) := by
  rw [State.appendBit_of_le s b now h]

/-- `s` after an APPEND of 1 at `t` that a RISE to `lvl` at the same time rolls back. -/
def State.afterRolledBackOne (s : State) (t : Nat) (lvl : Bool) : State :=
  ((((s.stamp t).appendBit true t).stamp t).driveIndicator lvl).rollback

section
variable {s : State} {t : Nat} {lvl : Bool}

theorem exec_edge_afterRolledBackOne (hgap : t - s.ref < 300) (hrise : s.isRise lvl) :
    exec (.edge t lvl) ((s.stamp t).appendBit true t) = .next (s.afterRolledBackOne t lvl) := by
  obtain ⟨hlast, href, hinverted⟩ : ((s.stamp t).appendBit true t).lastTime = t ∧
      ((s.stamp t).appendBit true t).ref = s.ref ∧ ((s.stamp t).appendBit true t).inverted = s.inverted := by
    rw [State.appendBit_frame]; exact ⟨rfl, rfl, rfl⟩
  have hback := exec_riseAt_of_spurious hlast.le (by rwa [href])
  rw [riseAt, hinverted, ← hrise.eq_xor] at hback
  exact hback

variable (hpos : s.pos.toNat ≤ 58)
include hpos

theorem State.afterRolledBackOne_pos : (s.afterRolledBackOne t lvl).pos = s.pos := by
  apply BitVec.eq_of_toNat_eq
  have happended := State.appendBit_pos_toNat (s := s.stamp t) true t hpos
  rw [State.afterRolledBackOne, State.rollback_pos_toNat]
  exact Nat.sub_eq_of_eq_add happended

/-- The bit that was rolled back is still in its cell (rule R124). -/
theorem State.afterRolledBackOne_buf : (s.afterRolledBackOne t lvl).buf = s.buf.write s.pos.toNat true :=
  State.appendBit_buf (s := s.stamp t) true t hpos

end

/-- Settles O31: the rollback takes the position back and leaves the running parity, which a start of a field alone discards. -/
theorem rolledBackBitStaysInTheParity : Obligations.RolledBackBitStaysInTheParity := by
  intro s t lvl hle _ hgap hrise hpos
  have hone : exec (.append true t) s = .next ((s.stamp t).appendBit true t) := exec_append true hle
  have hback := exec_edge_afterRolledBackOne hgap hrise
  have htwice : exec (.append true t) (s.afterRolledBackOne t lvl) = .next ((s.afterRolledBackOne t lvl).appendBit true t) :=
    exec_append (s := s.afterRolledBackOne t lvl) true le_rfl
  have hbackPos := State.afterRolledBackOne_pos (t := t) (lvl := lvl) hpos
  have hbackLe : (s.afterRolledBackOne t lvl).pos.toNat ≤ 58 := by rwa [hbackPos]
  refine ⟨_, _, hone, (execAll_cons_of_next hone _).trans (execAll_pair hback htwice), ?_, ?_, fun h21 h29 h36 => ?_,
    fun hstart => ⟨?_, ?_⟩⟩
  · rw [State.appendBit_buf true t hbackLe, State.afterRolledBackOne_buf hpos, hbackPos, Memory.write_write _ _ _ hpos]
    exact (State.appendBit_buf (s := s.stamp t) true t hpos).symm
  · rw [State.appendBit_pos true t hbackLe, hbackPos]
    exact (State.appendBit_pos (s := s.stamp t) true t hpos).symm
  · have hnot : ¬ (s.pos.toNat = 21 ∨ s.pos.toNat = 29 ∨ s.pos.toNat = 36) := by omega
    have honce : ((s.stamp t).appendBit true t).par_run = !s.par_run := by
      rw [State.appendBit_par_run_of_not_start (s := s.stamp t) true t hnot]
      exact Bool.xor_true _
    have hkept : (s.afterRolledBackOne t lvl).par_run = !s.par_run := honce
    refine ⟨?_, honce⟩
    rw [State.appendBit_par_run_of_not_start true t (by rwa [hbackPos]), hkept, Bool.xor_true, Bool.not_not]
  · exact State.appendBit_par_run_of_start true t (by rwa [hbackPos])
  · exact State.appendBit_par_run_of_start (s := s.stamp t) true t hstart

end Sys2Proof.Machine
end

section
/-! PROOFS. What operations return and on what they depend (spec/43_queries_and_outputs.md rules R180, R183; spec/10_state.md rule R20): an
operation reads the registers alone, and what it adds to the ports follows from its registers and operands. -/

namespace Sys2Proof.Machine

/-! ## The ports as the part of the state no register belongs to -/

/-- `s` with the ports and the last timestamp of `p`. -/
def State.withPortsOf (s p : State) : State :=
  { s with indicator := p.indicator, results := p.results, lastTime := p.lastTime, inputs := p.inputs }

theorem State.registers_withPortsOf (s p : State) : (s.withPortsOf p).registers = s.registers := rfl

/-- States with the same registers differ in their ports alone. -/
theorem State.eq_withPortsOf_of_registers_eq {s r : State} (h : s.registers = r.registers) : r = s.withPortsOf r := by
  have hports : r.registers.withPortsOf r = s.registers.withPortsOf r := by rw [h]
  exact hports

/-! ## The hardware's actions read no port -/

section
variable (s p : State)

theorem State.advanceTick_withPortsOf : (s.withPortsOf p).advanceTick = s.advanceTick.withPortsOf p := by
  have hclock : s.withPortsOf p = (s.withPortsOf p).withClockOf s := rfl
  rw [hclock, State.advanceTick_withClockOf, s.advanceTick_eq_withClockOf]
  rfl

theorem State.appendBit_withPortsOf (b : Bool) (now : Nat) :
    (s.withPortsOf p).appendBit b now = (s.appendBit b now).withPortsOf p := by
  by_cases h : s.pos.toNat ≤ 58
  · rw [State.appendBit_of_le s b now h, State.appendBit_of_le (s.withPortsOf p) b now h]
    rfl
  · have hge : 59 ≤ s.pos.toNat := Nat.lt_of_not_le h
    rw [State.appendBit_of_ge s b now hge, State.appendBit_of_ge (s.withPortsOf p) b now hge]
    rfl

theorem State.finalizeFrame_withPortsOf (now : Nat) :
    (s.withPortsOf p).finalizeFrame now = (s.finalizeFrame now).withPortsOf p := by
  rcases s.finalizeFrame_cases now with ⟨h, e⟩ | ⟨h, e⟩ <;> rw [e]
  · exact State.finalizeFrame_of_ready (s := s.withPortsOf p) h now
  · exact State.finalizeFrame_of_not_ready (s := s.withPortsOf p) h now

theorem State.rise_withPortsOf (t : Nat) : (s.withPortsOf p).rise t = (s.rise t).withPortsOf p := by
  rcases s.rise_cases t with ⟨h, e⟩ | ⟨h, e⟩ | ⟨hlow, hhigh, e⟩ <;> rw [e]
  · rw [State.rise_of_sync (s := s.withPortsOf p) h, State.finalizeFrame_withPortsOf]; rfl
  · exact State.rise_of_spurious (s := s.withPortsOf p) h
  · exact State.rise_of_accepted (s := s.withPortsOf p) hlow hhigh

/-- EDGE drives the indicator it finds, and does the rest without it. -/
theorem State.onEdge_withPortsOf (t : Nat) (lvl : Bool) :
    (s.withPortsOf p).onEdge t lvl = (s.onEdge t lvl).withPortsOf (p.driveIndicator lvl) := by
  by_cases h : s.isRise lvl
  · rw [State.onEdge_of_rise h, State.onEdge_of_rise (s := s.withPortsOf p) h]
    exact State.rise_withPortsOf (s.driveIndicator lvl) (p.driveIndicator lvl) t
  · rw [State.onEdge_of_fall h, State.onEdge_of_fall (s := s.withPortsOf p) h, State.fall_eq, State.fall_eq]
    exact State.appendBit_withPortsOf (s.driveIndicator lvl) (p.driveIndicator lvl) _ t

end

/-! ## What an operation does with the ports -/

/-- The ports of `p` after an operation that ran on the registers of `s` (rules R16, R99, R180). -/
def State.portsAfter (s p : State) : Instr → State
  | .nop => p
  | .tick => p
  | .edge t lvl => (p.stamp t).driveIndicator lvl
  | .append _ now => p.stamp now
  | .finalize now => p.stamp now
  | .readtime => p.returnResult (.readtime s.hh s.mm s.ss)
  | .gettime => p.returnResult (.gettime s.ss s.mm s.hh s.dt.day s.dt.month s.dt.year)
  | .issynced now => (p.stamp now).returnResult (.issynced (s.synced now))

/-- An operation that runs with the ports of `s` runs with any others that admit its timestamp, to the same registers. -/
theorem exec_withPortsOf {i : Instr} {s s' p : State} (hnext : exec i s = .next s')
    (hle : ∀ t, i.timestamp = some t → p.lastTime ≤ t) :
    exec i (s.withPortsOf p) = .next (s'.withPortsOf (s.portsAfter p i)) := by
  cases i with
  | nop => cases hnext; rfl
  | tick => cases hnext; exact congrArg _ (s.advanceTick_withPortsOf p)
  | edge t lvl =>
    obtain ⟨-, rfl⟩ := timestamped_next hnext
    exact (exec_edge (s := s.withPortsOf p) lvl (hle t rfl)).trans
      (congrArg _ ((s.stamp t).onEdge_withPortsOf (p.stamp t) t lvl))
  | append b now =>
    obtain ⟨-, rfl⟩ := timestamped_next hnext
    exact (exec_append (s := s.withPortsOf p) b (hle now rfl)).trans
      (congrArg _ ((s.stamp now).appendBit_withPortsOf (p.stamp now) b now))
  | finalize now =>
    obtain ⟨-, rfl⟩ := timestamped_next hnext
    exact (exec_finalize (s := s.withPortsOf p) (hle now rfl)).trans
      (congrArg _ ((s.stamp now).finalizeFrame_withPortsOf (p.stamp now) now))
  | readtime => cases hnext; rfl
  | gettime => cases hnext; rfl
  | issynced now =>
    obtain ⟨-, rfl⟩ := timestamped_next hnext
    exact exec_issynced (s := s.withPortsOf p) (hle now rfl)

section
variable {i : Instr} {s s' : State} (hnext : exec i s = .next s')
include hnext

theorem exec_next_timestamp_le {t : Nat} (ht : i.timestamp = some t) : s.lastTime ≤ t := by
  obtain ⟨act, -, hexec⟩ := exec_of_timestamp_some ht
  exact (timestamped_next ((hexec s).symm.trans hnext)).1

/-- The ports of the next state. -/
theorem exec_next_ports : s' = s'.withPortsOf (s.portsAfter s i) := by
  have hself := exec_withPortsOf (p := s) hnext fun _ => exec_next_timestamp_le hnext
  exact Host.Outcome.next.inj (hnext.symm.trans hself)

end

section
variable (s p : State)

/-- What an operation returns is appended, and does not depend on what was returned before. -/
theorem State.portsAfter_results (i : Instr) :
    ∃ out, ∀ p : State, (s.portsAfter p i).results = p.results ++ out := by
  cases i with
  | readtime => exact ⟨_, fun _ => rfl⟩
  | gettime => exact ⟨_, fun _ => rfl⟩
  | issynced now => exact ⟨_, fun _ => rfl⟩
  | _ => exact ⟨[], fun p => p.results.append_nil.symm⟩

theorem State.portsAfter_inputs (i : Instr) : (s.portsAfter p i).inputs = p.inputs := by
  cases i <;> rfl

theorem State.portsAfter_indicator {i : Instr} (hne : ∀ t lvl, i ≠ .edge t lvl) :
    (s.portsAfter p i).indicator = p.indicator := by
  cases i with
  | edge t lvl => exact absurd rfl (hne t lvl)
  | _ => rfl

/-- Another indicator before the operation can only be another indicator after it. -/
theorem State.portsAfter_of_indicator (x : Option Bool) (i : Instr) :
    ∃ y, s.portsAfter { p with indicator := x } i = { s.portsAfter p i with indicator := y } := by
  cases i with
  | edge t lvl => exact ⟨some lvl, rfl⟩
  | _ => exact ⟨x, rfl⟩

end

/-- Settles O41: the second state is the first with other ports, and both runs return the same. -/
theorem onlyRegistersDecideWhatOperationsDo : Obligations.OnlyRegistersDecideWhatOperationsDo := by
  intro i s r s' r' hregisters hs hr
  obtain ⟨out, hout⟩ := s.portsAfter_results i
  have hrun : exec i r = .next (s'.withPortsOf (s.portsAfter r i)) :=
    State.eq_withPortsOf_of_registers_eq hregisters ▸ exec_withPortsOf hs fun _ => exec_next_timestamp_le hr
  obtain rfl : r' = s'.withPortsOf (s.portsAfter r i) := Host.Outcome.next.inj (hr.symm.trans hrun)
  refine ⟨(s'.registers_withPortsOf _).symm, out, ?_, hout r⟩
  rw [exec_next_ports hs]
  exact hout s

/-- Settles O19: with another indicator the operation runs on the same registers with ports that differ in the indicator alone. -/
theorem indicatorIsAStatelessPassthrough : Obligations.IndicatorIsAStatelessPassthrough := by
  refine ⟨fun _ => rfl, fun i s s' hnext => ?_⟩
  have hindicator : s'.indicator = (s.portsAfter s i).indicator := by rw [exec_next_ports hnext]; rfl
  refine ⟨?_, fun hne => hindicator.trans (s.portsAfter_indicator s hne), fun x => ?_⟩
  · rintro t lvl rfl
    exact hindicator
  · obtain ⟨y, hy⟩ := s.portsAfter_of_indicator s x i
    have hrun := exec_withPortsOf (p := { s with indicator := x }) hnext fun _ => exec_next_timestamp_le hnext
    refine ⟨y, hrun.trans ?_⟩
    rw [hy, exec_next_ports hnext]
    rfl

theorem exec_next_of_admitted {i : Instr} {s : State} (hle : ∀ t, i.timestamp = some t → s.lastTime ≤ t) :
    ∃ s', exec i s = .next s' := by
  cases hi : i.timestamp with
  | none => exact (exec_of_timestamp_none hi s).imp fun _ h => h.1
  | some t => exact (exec_of_timestamp_le hi (hle t hi)).imp fun _ h => h.1

/-- Settles O40. -/
theorem readerWritesNoRegister : Obligations.ReaderWritesNoRegister := by
  intro i s hreader hle
  obtain ⟨s', hnext⟩ := exec_next_of_admitted hle
  have hne : ∀ t lvl, i ≠ .edge t lvl := by
    rintro t lvl rfl
    cases hreader
  refine ⟨s', hnext, exec_keeps_registers hnext hreader, ?_, ?_⟩ <;> rw [exec_next_ports hnext]
  · exact s.portsAfter_inputs s i
  · exact s.portsAfter_indicator s hne

end Sys2Proof.Machine
end

section
/-! PROOFS. The reader's queries (spec/43_queries_and_outputs.md rules R171, R176 to R178, R182): the Trust Evaluator's answer, alone and
behind a commit, and the two operations that answer on every state. -/

namespace Sys2Proof.Machine

/-! ## The Trust Evaluator's answer (rule R176) -/

section
variable {s : State} {now : Nat}

theorem State.synced_of_undated (h : s.dt.day = 0 ∨ s.dt.month = 0) : s.synced now = false := if_pos h

theorem State.synced_of_dated (hday : s.dt.day ≠ 0) (hmonth : s.dt.month ≠ 0) :
    s.synced now = decide (now - s.last_sync ≤ 120000) := by
  rw [State.synced, if_neg (not_or.2 ⟨hday, hmonth⟩)]
  by_cases hfresh : now - s.last_sync ≤ 120000
  · exact (if_neg (Nat.not_lt_of_le hfresh)).trans (decide_eq_true hfresh).symm
  · exact (if_pos (Nat.lt_of_not_le hfresh)).trans (decide_eq_false hfresh).symm

theorem State.synced_of_stale (h : 120000 < now - s.last_sync) : s.synced now = false := by
  by_cases hundated : s.dt.day = 0 ∨ s.dt.month = 0
  · exact State.synced_of_undated hundated
  · obtain ⟨hday, hmonth⟩ := not_or.1 hundated
    rw [State.synced_of_dated hday hmonth, decide_eq_false (Nat.not_le_of_lt h)]

theorem exec_issynced_answers {answer : Bool} (hle : s.lastTime ≤ now) (h : s.synced now = answer) :
    exec (.issynced now) s = .next { s with results := s.results ++ [.issynced answer], lastTime := now } := by
  rw [← h]
  exact exec_issynced hle

end

/-- Settles O37. -/
theorem issyncedAnswers : Obligations.IssyncedAnswers := by
  have hword : encode (.issynced 190000) = 0xE0002E630 := by decide
  refine ⟨hword, hword ▸ decodeOfEncodeIsTheInstruction (.issynced 190000) (by decide), fun s now hle _ => ?_⟩
  exact ⟨fun hundated => exec_issynced_answers hle (State.synced_of_undated hundated),
    fun hstale => exec_issynced_answers hle (State.synced_of_stale hstale),
    fun hday hmonth hfresh => exec_issynced_answers hle
      ((State.synced_of_dated hday hmonth).trans (decide_eq_true hfresh))⟩

/-- Behind a commit the answer is about the committed date and the commit's own time. -/
theorem execAll_commit_issynced {s : State} {now n : Nat} {answer : Bool} (hle : s.lastTime ≤ now) (hlater : now ≤ n)
    (hready : s.FrameReady) (hanswer : (s.commit now).synced n = answer) :
    ∃ s', execAll [.finalize now, .issynced n] s = .next s' ∧ s'.last_sync = now ∧
      s'.results = s.results ++ [.issynced answer] := by
  have hcommit : exec (.finalize now) s = .next ((s.commit now).clearBuffer.stamp now) := by
    rw [exec_finalize_stamped hle, State.finalizeFrame_of_ready hready]
  exact ⟨_, execAll_pair hcommit (exec_issynced_answers hlater hanswer), rfl, rfl⟩

/-- Settles O39: the commit sets the date that ISSYNCED looks at and the time it counts from, and reset sets no date. -/
theorem syncedAfterACommitUntilStale : Obligations.SyncedAfterACommitUntilStale := by
  intro s now n hle hlater hready
  refine ⟨fun hday hmonth => ?_, fun hundated => ?_, fun inv => ?_⟩
  · have hanswer : (s.commit now).synced n = decide (n ≤ now + 120000) := by
      rw [State.synced_of_dated (s := s.commit now) hday hmonth, decide_eq_decide, State.commit_last_sync]
      omega
    obtain ⟨s', hrun, -, hresults⟩ := execAll_commit_issynced hle hlater hready hanswer
    exact ⟨s', hrun, hresults⟩
  · exact execAll_commit_issynced hle hlater hready (State.synced_of_undated (s := s.commit now) hundated)
  · exact ⟨_, exec_issynced_answers (Nat.zero_le n) (State.synced_of_undated (.inl rfl)), rfl⟩

/-! ## GETTIME and NOP -/

/-- Settles O36. -/
theorem gettimeReturnsClockAndDate : Obligations.GettimeReturnsClockAndDate := by
  have hword : encode .gettime = 0xC00000000 := by decide
  exact ⟨hword, hword ▸ decode_gettime _ _, fun _ => rfl⟩

/-- Settles O38. -/
theorem nopChangesNothing : Obligations.NopChangesNothing := by
  have hword : encode .nop = 0x000000000 := by decide
  exact ⟨hword, hword ▸ decode_nop _ _, fun _ => rfl⟩

end Sys2Proof.Machine
end

section
/-! PROOFS. The one way an operation can be without a next state (spec/60_exceptions.md rules R185, R189): there is no exception, only the
refusal of a timestamp that breaks the premise of spec/00_scope.md rule R16. -/

namespace Sys2Proof.Machine

/-- Settles O8, by whether the operation carries a timestamp: without one it always runs, and with one the comparison with the last
timestamp given decides alone. -/
theorem refusedExactlyWhenTimestampDecreases : Obligations.RefusedExactlyWhenTimestampDecreases := by
  intro i s
  refine ⟨fun hle => ?_, fun t ht hlt => exec_of_timestamp_lt ht hlt⟩
  cases hi : i.timestamp with
  | none => exact exec_of_timestamp_none hi s
  | some t => exact exec_of_timestamp_le hi (hle t hi)

end Sys2Proof.Machine
end

section
/-! PROOFS. The configuration bit `INVERTED` (spec/70_reset_and_hazards.md rule R210): no operation writes it, so a step can change it only by
consuming a reset input. -/

namespace Sys2Proof.Machine

theorem exec_keeps_inverted {i : Instr} {s s' : State} (hnext : exec i s = .next s') : s'.inverted = s.inverted := by
  cases i with
  | nop => cases hnext; rfl
  | tick => cases hnext; rw [State.advanceTick_frame]
  | edge t lvl =>
    rcases exec_edge_next hnext with ⟨-, ⟨-, -, rfl⟩ | ⟨-, -, rfl⟩ | ⟨-, -, -, rfl⟩ | ⟨-, rfl⟩⟩
    · exact State.finalizeFrame_inverted _ t
    · rfl
    · rfl
    · rw [State.appendBit_frame]; rfl
  | append b now => obtain ⟨-, rfl⟩ := timestamped_next hnext; rw [State.appendBit_frame]; rfl
  | finalize now => obtain ⟨-, rfl⟩ := timestamped_next hnext; exact State.finalizeFrame_inverted _ now
  | readtime => cases hnext; rfl
  | gettime => cases hnext; rfl
  | issynced now => obtain ⟨-, rfl⟩ := timestamped_next hnext; rfl

/-- Settles O43, by what the step consumes: nothing, an operation, or a reset input. -/
theorem onlyResetChangesInverted : Obligations.OnlyResetChangesInverted := by
  intro s s' hnext
  refine ⟨fun inv rest hinputs => ?_, fun hother => ?_⟩
  · cases (step_of_reset hinputs).symm.trans hnext
    exact ⟨rfl, rfl⟩
  · rcases step_cases hnext with ⟨-, rfl⟩ | ⟨i, rest, -, hexec⟩ | ⟨inv, rest, hinputs, -⟩
    · rfl
    · exact exec_keeps_inverted (s := s.consume rest) hexec
    · exact absurd hinputs (hother inv rest)

end Sys2Proof.Machine
end

section
/-! PROOFS. A complete frame before its marker (spec/70_reset_and_hazards.md rule R227): what a further pulse does to it. -/

namespace Sys2Proof.Machine

/-- A sync gap away from position 59 only empties the buffer (rule R150). -/
theorem exec_riseAt_discards {s : State} {t : Nat} (hle : s.lastTime ≤ t) (hgap : 1200 < t - s.ref) (hpos : s.pos.toNat ≠ 59) :
    ∃ s', exec (riseAt s.inverted t) s = .next s' ∧
      s'.buf = 0 ∧ s'.pos = 0 ∧ s'.dt = s.dt ∧ s'.last_sync = s.last_sync := by
  have hready : ¬ s.FrameReady := by
    rintro ⟨hfull, -⟩
    exact hpos hfull
  refine ⟨_, exec_riseAt_of_sync hle hgap, ?_⟩
  rw [State.finalizeFrame_of_not_ready hready]
  exact ⟨rfl, rfl, rfl, rfl⟩

/-- Settles O34: the FALL's APPEND overflows at 59, the accepted RISE does not look at the frame, and the spurious RISE leaves a frame of 58
bits, which the sync gap does not decode. -/
theorem completeFrameWaitsForTheMarker : Obligations.CompleteFrameWaitsForTheMarker := by
  intro s t lvl hle _ hpos
  refine ⟨fun hfall => ?_, fun hrise hlow hhigh => ?_, fun hrise hgap u hsync hlater => ?_⟩
  · obtain rfl := State.eq_xor_of_not_isRise hfall
    obtain ⟨a, happend, hfallen⟩ := exec_fallAt_eq_append hle rfl
    cases happend.symm.trans ((sixtiethBitDiscardsTheFrame s _ t hle).1 hpos)
    exact ⟨_, hfallen, rfl, rfl, rfl, rfl⟩
  · obtain rfl := hrise.eq_xor
    exact ⟨_, exec_riseAt_of_accepted hle hlow hhigh, rfl, rfl, rfl, rfl⟩
  · obtain rfl := hrise.eq_xor
    let m := ((s.stamp t).driveIndicator (true ^^ s.inverted)).rollback
    have hback : m.pos.toNat = 58 := (State.rollback_pos_toNat _).trans (congrArg (· - 1) hpos)
    have hsyncGap : 1200 < u - s.ref := by omega
    obtain ⟨s', hmarker, hdiscarded⟩ := exec_riseAt_discards (s := m) hlater hsyncGap (by omega)
    exact ⟨m, s', exec_riseAt_of_spurious hle hgap, hback, hmarker, hdiscarded⟩

end Sys2Proof.Machine
end

section
/-! PROOFS. The tick phase across a commit (spec/70_reset_and_hazards.md rules R222, R223): a commit overwrites hh:mm:ss and leaves `tick`, so
the TICKs before it count in `tick` alone and those after it complete the second that was running. -/

namespace Sys2Proof.Machine

/-! ## TICK and a committing RISE -/

/-- `s` after a RISE to `lvl` at `t` that commits. -/
def State.afterCommittingRise (s : State) (t : Nat) (lvl : Bool) : State :=
  (((s.commit t).clearBuffer.stamp t).driveIndicator lvl).setRef t

theorem exec_edge_of_commits {s : State} {t : Nat} {lvl : Bool} (hle : s.lastTime ≤ t) (hcommits : s.Commits (.edge t lvl)) :
    exec (.edge t lvl) s = .next (s.afterCommittingRise t lvl) := by
  obtain ⟨hrise, hgap, hready⟩ := hcommits
  obtain rfl := hrise.eq_xor
  refine (exec_riseAt_of_sync hle hgap).trans ?_
  rw [State.finalizeFrame_of_ready hready, State.afterCommittingRise]

/-- Of the clock a commit finds, only `tick` is left. -/
theorem State.afterCommittingRise_withClockOf (s c : State) (t : Nat) (lvl : Bool) :
    (s.withClockOf c).afterCommittingRise t lvl = { s.afterCommittingRise t lvl with tick := c.tick } := rfl

/-- However far the carry runs, it leaves `tick` at 0. -/
theorem State.advanceTick_tick_of_carry {s : State} (h : 1000 ≤ s.tick.toNat + 1) : s.advanceTick.tick = 0 := by
  rcases s.advanceTick_cases with ⟨hlt, -⟩ | ⟨-, -, e⟩ | ⟨-, -, -, e⟩ | ⟨-, -, -, -, e⟩ | ⟨-, -, -, -, e⟩
  · exact absurd h (Nat.not_le_of_lt hlt)
  all_goals rw [e]

/-- Settles O48: the TICK's carry is overwritten by the commit that follows it, and is kept when it follows the commit. -/
theorem tickAndCommittingRiseDoNotCommute : Obligations.TickAndCommittingRiseDoNotCommute := by
  intro s t lvl hle htick hcommits
  have hcarry : 1000 ≤ s.tick.toNat + 1 := by omega
  have hearly : exec (.edge t lvl) s.advanceTick = .next { s.afterCommittingRise t lvl with tick := 0 } := by
    rw [State.advanceTick_eq_withClockOf, exec_edge_of_commits (s := s.withClockOf s.advanceTick) hle hcommits,
      State.afterCommittingRise_withClockOf, State.advanceTick_tick_of_carry hcarry]
  have hlate : exec .tick (s.afterCommittingRise t lvl) = .next { s.afterCommittingRise t lvl with tick := 0, ss := 1 } :=
    exec_tick_counts_ss (s := s.afterCommittingRise t lvl) hcarry (by decide : (0#6).toNat + 1 < 60) rfl
  exact ⟨_, _, execAll_pair (exec_tick s) hearly, execAll_pair (exec_edge_of_commits hle hcommits) hlate, rfl, rfl, rfl⟩

/-! ## TICKs up to the end of a second -/

/-- Within a second TICKs count in `tick` alone. -/
theorem State.advanceTick_iterate_of_lt {s : State} {n : Nat} (h : s.tick.toNat + n < 1000) :
    State.advanceTick^[n] s = { s with tick := BitVec.ofNat 10 (s.tick.toNat + n) } := by
  induction n with
  | zero => rw [Function.iterate_zero_apply, Nat.add_zero, ofNat_eq_of_toNat_eq rfl]
  | succ n ih =>
    have hcount : (BitVec.ofNat 10 (s.tick.toNat + n)).toNat = s.tick.toNat + n :=
      (BitVec.toNat_ofNat _ _).trans (Nat.mod_eq_of_lt (by omega))
    rw [Function.iterate_succ_apply', ih (by omega), State.advanceTick_of_lt (hcount.trans_lt (by omega))]
    simp only [hcount, Nat.add_assoc]

/-- The TICK that completes the second counts it. -/
theorem State.advanceTick_iterate_of_eq {s : State} {n : Nat} {ss : BitVec 6} (htick : s.tick.toNat ≤ 999)
    (h : s.tick.toNat + n = 1000) (hlt : s.ss.toNat + 1 < 60) (hss : ss.toNat = s.ss.toNat + 1) :
    State.advanceTick^[n] s = { s with tick := 0, ss := ss } := by
  obtain ⟨k, rfl⟩ : ∃ k, n = k + 1 := ⟨n - 1, by omega⟩
  have hlast : (BitVec.ofNat 10 (s.tick.toNat + k)).toNat = 999 := by
    rw [BitVec.toNat_ofNat, Nat.mod_eq_of_lt (by omega)]
    omega
  rw [Function.iterate_succ_apply', State.advanceTick_iterate_of_lt (by omega),
    State.advanceTick_carries (Nat.le_of_eq (congrArg (· + 1) hlast.symm))]
  exact State.carrySecond_counts (s := { s with tick := 0 }) hlt hss

/-- A second that starts at `ss` = 0 with `tick` running lasts until `tick` has run to 1000. -/
theorem State.advanceTick_iterate_first_second {s : State} (hss : s.ss = 0) (htick : s.tick.toNat ≤ 999) (n : Nat) :
    (n < 1000 - s.tick.toNat → (State.advanceTick^[n] s).ss = 0) ∧
    (n = 1000 - s.tick.toNat → (State.advanceTick^[n] s).ss = 1 ∧ (State.advanceTick^[n] s).tick = 0) := by
  refine ⟨fun hlt => ?_, fun heq => ?_⟩
  · rw [State.advanceTick_iterate_of_lt (by omega)]
    exact hss
  · rw [State.advanceTick_iterate_of_eq (ss := 1) htick (by omega) (by rw [hss]; decide) (by rw [hss]; rfl)]
    exact ⟨rfl, rfl⟩

/-- Settles O49: `tick` goes on from where the commit found it, and `ss` counts when it has run to 1000. -/
theorem firstSecondAfterACommit : Obligations.FirstSecondAfterACommit := by
  intro s now n hle hready htick
  have hcommit : exec (.finalize now) s = .next ((s.commit now).clearBuffer.stamp now) := by
    rw [exec_finalize_stamped hle, State.finalizeFrame_of_ready hready]
  exact ⟨⟨_, hcommit, rfl, rfl⟩, _, (execAll_cons_of_next hcommit _).trans (execAll_replicate_tick n _),
    State.advanceTick_iterate_first_second (s := (s.commit now).clearBuffer.stamp now) rfl htick n⟩

end Sys2Proof.Machine
end

section
/-! PROOFS. The event words written out in spec/95_test_vectors.md section 2.7. -/

namespace Sys2Proof

/-- Settles O5: each word is laid out from the three fields its vector lists, and its operation code decodes to its operation. -/
theorem specEventWordsDecode : Obligations.SpecEventWordsDecode :=
  ⟨decode_nop false 0, decode_tick false 0, decode_edge true 0x2710, decode_edge false 0x2774,
    decode_append false 0, decode_append true 0, decode_finalize false 0x11170, decode_readtime false 0,
    decode_gettime false 0, decode_issynced false 0x2E630⟩

end Sys2Proof
end
